-- ==== Sys2Proof/Word.lean ====
section
/-!
DEFINITION. The words of the device and the small enumerations of instruction fields.
-/
namespace Sys2Proof

/-- A scalar register's value (01 R15). -/
abbrev W64 := BitVec 64
/-- A vector register's value (01 R15). -/
abbrev W512 := BitVec 512
/-- A byte of memory. -/
abbrev Byte := BitVec 8
/-- An instruction word (03 R48). -/
abbrev W32 := BitVec 32

/-- A finite map kept as a list of keys and values, the keys strictly rising. -/
abbrev FMap (V : Type) := List (Nat × V)

/-- Precision of a scalar float word, in the order of its two-bit code (05 Table 5-6). -/
inductive Prec where
  | f64 | f32 | bf16 | f16
  deriving DecidableEq, Repr

/-- Order of an M-format word (03 R69, 08 R203). -/
inductive Ord where
  | plain | acq | rel | acqrel
  deriving DecidableEq, Repr

/-- Scope of an access or a handle (08 R195). -/
inductive Scope where
  | core | sg | dev | sys
  deriving DecidableEq, Repr

/-- Cache hint of an M-format word (07 R178). -/
inductive Hint where
  | default | stream | sticky | bypass
  deriving DecidableEq, Repr

/-- The precision with a given two-bit code. -/
def Prec.ofBits (b : BitVec 2) : Prec :=
  if b = 0#2 then .f64 else if b = 1#2 then .f32 else if b = 2#2 then .bf16 else .f16
/-- The two-bit code of a precision. -/
def Prec.bits : Prec → BitVec 2
  | .f64 => 0#2 | .f32 => 1#2 | .bf16 => 2#2 | .f16 => 3#2

/-- The order with a given two-bit code. -/
def Ord.ofBits (b : BitVec 2) : Ord :=
  if b = 0#2 then .plain else if b = 1#2 then .acq else if b = 2#2 then .rel else .acqrel
/-- The two-bit code of an order. -/
def Ord.bits : Ord → BitVec 2
  | .plain => 0#2 | .acq => 1#2 | .rel => 2#2 | .acqrel => 3#2

/-- The scope with a given two-bit code. -/
def Scope.ofBits (b : BitVec 2) : Scope :=
  if b = 0#2 then .core else if b = 1#2 then .sg else if b = 2#2 then .dev else .sys
/-- The two-bit code of a scope. -/
def Scope.bits : Scope → BitVec 2
  | .core => 0#2 | .sg => 1#2 | .dev => 2#2 | .sys => 3#2

/-- The hint with a given two-bit code. -/
def Hint.ofBits (b : BitVec 2) : Hint :=
  if b = 0#2 then .default else if b = 1#2 then .stream else if b = 2#2 then .sticky else .bypass
/-- The two-bit code of a hint. -/
def Hint.bits : Hint → BitVec 2
  | .default => 0#2 | .stream => 1#2 | .sticky => 2#2 | .bypass => 3#2

end Sys2Proof
end

