-- ==== Sys2Proof/Syntax.lean ====
section
/-!
DEFINITION. The instructions: one constructor for each row of spec/opcode_table.json.
A word's constructor holds its operand fields as bits. The stall count S and the bit L belong to the issue slot and
stand in `Decoded` (Decode.lean). A row without an encoding is a step of an engine, the fabric or the host (95); its
operands stand in the state's `ev`.
-/
namespace Sys2Proof

/-- Every instruction word and every step of the device that the opcode table lists. -/
inductive Instr where
  -- Both `nop` words (03 R73).
  /-- `nop` (R148) -/
  | nop
  /-- `nop` (R73) -/
  | nopA
  -- Integer words (04).
  /-- `add` (R81) -/
  | add (d a b : BitVec 5)
  /-- `sub` (R81) -/
  | sub (d a b : BitVec 5)
  /-- `addi` (R81) -/
  | addi (d a : BitVec 5) (i : BitVec 10)
  /-- `mul` (R82) -/
  | mul (d a b : BitVec 5)
  /-- `mulh` (R82) -/
  | mulh (d a b : BitVec 5)
  /-- `mulhu` (R82) -/
  | mulhu (d a b : BitVec 5)
  /-- `div` (R83) -/
  | div (d a b : BitVec 5)
  /-- `divu` (R83) -/
  | divu (d a b : BitVec 5)
  /-- `rem` (R83) -/
  | rem (d a b : BitVec 5)
  /-- `remu` (R83) -/
  | remu (d a b : BitVec 5)
  /-- `and` (R85) -/
  | and (d a b : BitVec 5)
  /-- `or` (R85) -/
  | or (d a b : BitVec 5)
  /-- `xor` (R85) -/
  | xor (d a b : BitVec 5)
  /-- `andn` (R85) -/
  | andn (d a b : BitVec 5)
  /-- `andi` (R85) -/
  | andi (d a : BitVec 5) (i : BitVec 10)
  /-- `ori` (R85) -/
  | ori (d a : BitVec 5) (i : BitVec 10)
  /-- `xori` (R85) -/
  | xori (d a : BitVec 5) (i : BitVec 10)
  /-- `shl` (R86) -/
  | shl (d a b : BitVec 5)
  /-- `shr` (R86) -/
  | shr (d a b : BitVec 5)
  /-- `sra` (R86) -/
  | sra (d a b : BitVec 5)
  /-- `shli` (R86) -/
  | shli (d a : BitVec 5) (i : BitVec 10)
  /-- `shri` (R86) -/
  | shri (d a : BitVec 5) (i : BitVec 10)
  /-- `srai` (R86) -/
  | srai (d a : BitVec 5) (i : BitVec 10)
  /-- `rot` (R87) -/
  | rot (d a b : BitVec 5)
  /-- `roti` (R87) -/
  | roti (d a : BitVec 5) (i : BitVec 10)
  /-- `clz` (R88) -/
  | clz (d a : BitVec 5)
  /-- `ctz` (R88) -/
  | ctz (d a : BitVec 5)
  /-- `popc` (R88) -/
  | popc (d a : BitVec 5)
  /-- `min` (R89) -/
  | min (d a b : BitVec 5)
  /-- `max` (R89) -/
  | max (d a b : BitVec 5)
  /-- `minu` (R89) -/
  | minu (d a b : BitVec 5)
  /-- `maxu` (R89) -/
  | maxu (d a b : BitVec 5)
  /-- `sel` (R92) -/
  | sel (d a b : BitVec 5) (p : BitVec 3)
  /-- `cmp.eq` (R90) -/
  | cmpEq (d a b : BitVec 5)
  /-- `cmp.ne` (R90) -/
  | cmpNe (d a b : BitVec 5)
  /-- `cmp.lt` (R90) -/
  | cmpLt (d a b : BitVec 5)
  /-- `cmp.ltu` (R90) -/
  | cmpLtu (d a b : BitVec 5)
  /-- `cmp.le` (R90) -/
  | cmpLe (d a b : BitVec 5)
  /-- `cmp.leu` (R90) -/
  | cmpLeu (d a b : BitVec 5)
  /-- `cmpp` (R91) -/
  | cmpp (q : BitVec 3) (a b : BitVec 5) (m : BitVec 2) (c : BitVec 3)
  /-- `movi` (R93) -/
  | movi (d : BitVec 5) (i : BitVec 15)
  /-- `movs` (R93) -/
  | movs (d : BitVec 5) (i : BitVec 15)
  /-- `addsh` (R94) -/
  | addsh (d a b m : BitVec 5)
  /-- `bfx` (R96) -/
  | bfx (d a b : BitVec 5) (x : BitVec 1)
  /-- `bfi` (R96) -/
  | bfi (d a b : BitVec 5)
  -- Scalar float words (05).
  /-- `fadd` (R118) -/
  | fadd (d a b : BitVec 5) (p : Prec) (r : BitVec 3)
  /-- `fsub` (R118) -/
  | fsub (d a b : BitVec 5) (p : Prec) (r : BitVec 3)
  /-- `fmul` (R118) -/
  | fmul (d a b : BitVec 5) (p : Prec) (r : BitVec 3)
  /-- `fdiv` (R118) -/
  | fdiv (d a b : BitVec 5) (p : Prec) (r : BitVec 3)
  /-- `fsqrt` (R119) -/
  | fsqrt (d a : BitVec 5) (p : Prec) (r : BitVec 3)
  /-- `fmin` (R121) -/
  | fmin (d a b : BitVec 5) (p : Prec)
  /-- `fmax` (R121) -/
  | fmax (d a b : BitVec 5) (p : Prec)
  /-- `fma` (R120) -/
  | fma (d a b : BitVec 5) (p : Prec) (r : BitVec 3)
  /-- `fms` (R120) -/
  | fms (d a b : BitVec 5) (p : Prec) (r : BitVec 3)
  /-- `fnma` (R120) -/
  | fnma (d a b : BitVec 5) (p : Prec) (r : BitVec 3)
  /-- `fnms` (R120) -/
  | fnms (d a b : BitVec 5) (p : Prec) (r : BitVec 3)
  /-- `fcmp` (R122) -/
  | fcmp (d a b : BitVec 5) (p : Prec)
  /-- `fclass` (R123) -/
  | fclass (d a : BitVec 5) (p : Prec)
  /-- `fsgnj` (R124) -/
  | fsgnj (d a b : BitVec 5) (p : Prec)
  /-- `fsgnn` (R124) -/
  | fsgnn (d a b : BitVec 5) (p : Prec)
  /-- `fsgnx` (R124) -/
  | fsgnx (d a b : BitVec 5) (p : Prec)
  /-- `fcvt.if` (R125) -/
  | fcvtIf (d a : BitVec 5) (p : Prec) (r : BitVec 3)
  /-- `fcvt.fi` (R126) -/
  | fcvtFi (d a : BitVec 5) (p : Prec) (r : BitVec 3)
  /-- `fcvt.ff` (R127) -/
  | fcvtFf (d a : BitVec 5) (v : BitVec 1) (e p : Prec) (r : BitVec 3)
  /-- `fmvx` (R129) -/
  | fmvx (d a b : BitVec 5) (p : Prec)
  -- Vector words (13).
  /-- `vadd` (R307) -/
  | vadd (d a b : BitVec 5) (p : BitVec 3) (t : BitVec 2)
  /-- `vsub` (R307) -/
  | vsub (d a b : BitVec 5) (p : BitVec 3) (t : BitVec 2)
  /-- `vmul` (R307) -/
  | vmul (d a b : BitVec 5) (p : BitVec 3) (t : BitVec 2)
  /-- `vfma` (R307) -/
  | vfma (d a b : BitVec 5) (p : BitVec 3) (t : BitVec 2)
  /-- `vfms` (R307) -/
  | vfms (d a b : BitVec 5) (p : BitVec 3) (t : BitVec 2)
  /-- `vfnma` (R307) -/
  | vfnma (d a b : BitVec 5) (p : BitVec 3) (t : BitVec 2)
  /-- `vrcp` (R308) -/
  | vrcp (d a : BitVec 5) (p : BitVec 3) (t : BitVec 2)
  /-- `vrsqrt` (R308) -/
  | vrsqrt (d a : BitVec 5) (p : BitVec 3) (t : BitVec 2)
  /-- `vexp2` (R308) -/
  | vexp2 (d a : BitVec 5) (p : BitVec 3) (t : BitVec 2)
  /-- `vmin` (R307) -/
  | vmin (d a b : BitVec 5) (p : BitVec 3) (t : BitVec 2)
  /-- `vmax` (R307) -/
  | vmax (d a b : BitVec 5) (p : BitVec 3) (t : BitVec 2)
  /-- `vabs` (R307) -/
  | vabs (d a : BitVec 5) (p : BitVec 3) (t : BitVec 2)
  /-- `vneg` (R307) -/
  | vneg (d a : BitVec 5) (p : BitVec 3) (t : BitVec 2)
  /-- `vand` (R309) -/
  | vand (d a b : BitVec 5) (p : BitVec 3) (t : BitVec 2)
  /-- `vor` (R309) -/
  | vor (d a b : BitVec 5) (p : BitVec 3) (t : BitVec 2)
  /-- `vxor` (R309) -/
  | vxor (d a b : BitVec 5) (p : BitVec 3) (t : BitVec 2)
  /-- `vandn` (R309) -/
  | vandn (d a b : BitVec 5) (p : BitVec 3) (t : BitVec 2)
  /-- `vshl` (R309) -/
  | vshl (d a b : BitVec 5) (p : BitVec 3) (t : BitVec 2)
  /-- `vshr` (R309) -/
  | vshr (d a b : BitVec 5) (p : BitVec 3) (t : BitVec 2)
  /-- `vsra` (R309) -/
  | vsra (d a b : BitVec 5) (p : BitVec 3) (t : BitVec 2)
  /-- `vshli` (R309) -/
  | vshli (d a k : BitVec 5) (p : BitVec 3) (t : BitVec 2)
  /-- `vshri` (R309) -/
  | vshri (d a k : BitVec 5) (p : BitVec 3) (t : BitVec 2)
  /-- `vsrai` (R309) -/
  | vsrai (d a k : BitVec 5) (p : BitVec 3) (t : BitVec 2)
  /-- `vceq` (R310) -/
  | vceq (q : BitVec 3) (a b : BitVec 5) (p : BitVec 3) (t : BitVec 2)
  /-- `vcne` (R310) -/
  | vcne (q : BitVec 3) (a b : BitVec 5) (p : BitVec 3) (t : BitVec 2)
  /-- `vclt` (R310) -/
  | vclt (q : BitVec 3) (a b : BitVec 5) (p : BitVec 3) (t : BitVec 2)
  /-- `vcle` (R310) -/
  | vcle (q : BitVec 3) (a b : BitVec 5) (p : BitVec 3) (t : BitVec 2)
  /-- `vsel` (R311) -/
  | vsel (d a b : BitVec 5) (p : BitVec 3) (t : BitVec 2)
  /-- `vperm` (R311) -/
  | vperm (d a b : BitVec 5) (p : BitVec 3) (t : BitVec 2)
  /-- `vbcast` (R312) -/
  | vbcast (d a : BitVec 5) (p : BitVec 3) (t : BitVec 2)
  /-- `vext` (R312) -/
  | vext (d a b : BitVec 5) (t : BitVec 2)
  /-- `vins` (R312) -/
  | vins (d a b : BitVec 5) (t : BitVec 2)
  /-- `vred.add` (R313) -/
  | vredAdd (d a : BitVec 5) (p : BitVec 3) (t : BitVec 2)
  /-- `vred.max` (R313) -/
  | vredMax (d a : BitVec 5) (p : BitVec 3) (t : BitVec 2)
  /-- `vred.min` (R313) -/
  | vredMin (d a : BitVec 5) (p : BitVec 3) (t : BitVec 2)
  /-- `vred.or` (R313) -/
  | vredOr (d a : BitVec 5) (p : BitVec 3) (t : BitVec 2)
  /-- `vcvt` (R314) -/
  | vcvt (d a : BitVec 5) (h : BitVec 1) (e : BitVec 2) (p : BitVec 3) (t : BitVec 2)
  /-- `vcvtb` (R315) -/
  | vcvtb (d a : BitVec 5) (r : BitVec 1) (t : BitVec 2)
  /-- `vpand` (R317) -/
  | vpand (d a b : BitVec 3)
  /-- `vpor` (R317) -/
  | vpor (d a b : BitVec 3)
  /-- `vpnot` (R317) -/
  | vpnot (d a : BitVec 3)
  /-- `vpopc` (R317) -/
  | vpopc (d : BitVec 5) (a p : BitVec 3) (t : BitVec 2)
  /-- `viota` (R317) -/
  | viota (d : BitVec 5) (a p : BitVec 3) (t : BitVec 2)
  /-- `vmovp` (R317) -/
  | vmovp (d a : BitVec 5) (r : BitVec 1) (t : BitVec 2)
  /-- `vsat` (R316) -/
  | vsat (d a b : BitVec 5) (p : BitVec 3) (t : BitVec 2)
  /-- `vdot4` (R318) -/
  | vdot4 (d a b : BitVec 5) (p : BitVec 3) (t : BitVec 2)
  -- Control words and special registers (06).
  /-- `br.eq` (R149) -/
  | brEq (a b : BitVec 5) (i : BitVec 10)
  /-- `br.ne` (R149) -/
  | brNe (a b : BitVec 5) (i : BitVec 10)
  /-- `br.lt` (R149) -/
  | brLt (a b : BitVec 5) (i : BitVec 10)
  /-- `br.ltu` (R149) -/
  | brLtu (a b : BitVec 5) (i : BitVec 10)
  /-- `br.ge` (R149) -/
  | brGe (a b : BitVec 5) (i : BitVec 10)
  /-- `br.geu` (R149) -/
  | brGeu (a b : BitVec 5) (i : BitVec 10)
  /-- `brp` (R149) -/
  | brp (n : BitVec 3) (m : BitVec 2) (i : BitVec 10)
  /-- `jmp` (R150) -/
  | jmp (i : BitVec 20)
  /-- `jal` (R150) -/
  | jal (i : BitVec 20)
  /-- `jr` (R150) -/
  | jr (d a : BitVec 5) (i : BitVec 10)
  /-- `trap` (R151) -/
  | trap (i : BitVec 20)
  /-- `tret` (R152) -/
  | tret
  /-- `csrr` (R153) -/
  | csrr (d : BitVec 5) (c : BitVec 10)
  /-- `csrw` (R153) -/
  | csrw (a : BitVec 5) (c : BitVec 10)
  /-- `csrx` (R153) -/
  | csrx (d a : BitVec 5) (c : BitVec 10)
  -- Loads, stores and atomics (07).
  /-- `ld.b` (R187) -/
  | ldB (d b : BitVec 5) (h : BitVec 4) (o : Ord) (c : Scope) (n : Hint)
  /-- `ld.bz` (R187) -/
  | ldBz (d b : BitVec 5) (h : BitVec 4) (o : Ord) (c : Scope) (n : Hint)
  /-- `ld.h` (R187) -/
  | ldH (d b : BitVec 5) (h : BitVec 4) (o : Ord) (c : Scope) (n : Hint)
  /-- `ld.hz` (R187) -/
  | ldHz (d b : BitVec 5) (h : BitVec 4) (o : Ord) (c : Scope) (n : Hint)
  /-- `ld.w` (R187) -/
  | ldW (d b : BitVec 5) (h : BitVec 4) (o : Ord) (c : Scope) (n : Hint)
  /-- `ld.wz` (R187) -/
  | ldWz (d b : BitVec 5) (h : BitVec 4) (o : Ord) (c : Scope) (n : Hint)
  /-- `ld.d` (R187) -/
  | ldD (d b : BitVec 5) (h : BitVec 4) (o : Ord) (c : Scope) (n : Hint)
  /-- `ldo.b` (R187) -/
  | ldoB (d b : BitVec 5) (i : BitVec 10)
  /-- `ldo.bz` (R187) -/
  | ldoBz (d b : BitVec 5) (i : BitVec 10)
  /-- `ldo.h` (R187) -/
  | ldoH (d b : BitVec 5) (i : BitVec 10)
  /-- `ldo.hz` (R187) -/
  | ldoHz (d b : BitVec 5) (i : BitVec 10)
  /-- `ldo.w` (R187) -/
  | ldoW (d b : BitVec 5) (i : BitVec 10)
  /-- `ldo.wz` (R187) -/
  | ldoWz (d b : BitVec 5) (i : BitVec 10)
  /-- `ldo.d` (R187) -/
  | ldoD (d b : BitVec 5) (i : BitVec 10)
  /-- `st.b` (R188) -/
  | stB (d b : BitVec 5) (h : BitVec 4) (o : Ord) (c : Scope) (n : Hint)
  /-- `st.h` (R188) -/
  | stH (d b : BitVec 5) (h : BitVec 4) (o : Ord) (c : Scope) (n : Hint)
  /-- `st.w` (R188) -/
  | stW (d b : BitVec 5) (h : BitVec 4) (o : Ord) (c : Scope) (n : Hint)
  /-- `st.d` (R188) -/
  | stD (d b : BitVec 5) (h : BitVec 4) (o : Ord) (c : Scope) (n : Hint)
  /-- `sto.b` (R188) -/
  | stoB (d b : BitVec 5) (i : BitVec 10)
  /-- `sto.h` (R188) -/
  | stoH (d b : BitVec 5) (i : BitVec 10)
  /-- `sto.w` (R188) -/
  | stoW (d b : BitVec 5) (i : BitVec 10)
  /-- `sto.d` (R188) -/
  | stoD (d b : BitVec 5) (i : BitVec 10)
  /-- `amo.add` (R189) -/
  | amoAdd (d b : BitVec 5) (h : BitVec 4) (o : Ord) (c : Scope) (n : Hint)
  /-- `amo.and` (R189) -/
  | amoAnd (d b : BitVec 5) (h : BitVec 4) (o : Ord) (c : Scope) (n : Hint)
  /-- `amo.or` (R189) -/
  | amoOr (d b : BitVec 5) (h : BitVec 4) (o : Ord) (c : Scope) (n : Hint)
  /-- `amo.xor` (R189) -/
  | amoXor (d b : BitVec 5) (h : BitVec 4) (o : Ord) (c : Scope) (n : Hint)
  /-- `amo.max` (R189) -/
  | amoMax (d b : BitVec 5) (h : BitVec 4) (o : Ord) (c : Scope) (n : Hint)
  /-- `amo.min` (R189) -/
  | amoMin (d b : BitVec 5) (h : BitVec 4) (o : Ord) (c : Scope) (n : Hint)
  /-- `amo.maxu` (R189) -/
  | amoMaxu (d b : BitVec 5) (h : BitVec 4) (o : Ord) (c : Scope) (n : Hint)
  /-- `amo.minu` (R189) -/
  | amoMinu (d b : BitVec 5) (h : BitVec 4) (o : Ord) (c : Scope) (n : Hint)
  /-- `amo.swap` (R189) -/
  | amoSwap (d b : BitVec 5) (h : BitVec 4) (o : Ord) (c : Scope) (n : Hint)
  /-- `cas` (R189) -/
  | cas (d b : BitVec 5) (h : BitVec 4) (o : Ord) (c : Scope) (n : Hint)
  -- Order handles and fences (08).
  /-- `hnew` (R209) -/
  | hnew (h : BitVec 4) (c : Scope)
  /-- `hfork` (R210) -/
  | hfork (h g : BitVec 4) (c : Scope)
  /-- `hjoin` (R211) -/
  | hjoin (h g : BitVec 4) (c : Scope)
  /-- `hfree` (R212) -/
  | hfree (h : BitVec 4)
  /-- `hwait` (R213) -/
  | hwait (h : BitVec 4) (c : Scope)
  /-- `fence` (R214) -/
  | fence (c : Scope)
  -- Other address words (07).
  /-- `pref` (R191) -/
  | pref (b : BitVec 5) (h : BitVec 4) (o : Ord) (c : Scope) (n : Hint)
  /-- `waita` (R192) -/
  | waita (d b : BitVec 5) (h : BitVec 4) (o : Ord) (c : Scope) (n : Hint)
  /-- `genset` (R193) -/
  | genset (d a : BitVec 5) (g : BitVec 3)
  /-- `migr` (R194) -/
  | migr (d a : BitVec 5) (m : BitVec 1)
  -- Messages, weight and queues (09).
  /-- `send` (R243) -/
  | send (d a p : BitVec 5) (h : BitVec 4) (f : BitVec 1)
  /-- `ibpop` (R246) -/
  | ibpop (d : BitVec 5) (h : BitVec 4)
  /-- `ibpeek` (R247) -/
  | ibpeek (d : BitVec 5)
  /-- `end` (R248) -/
  | endH
  /-- `wdraw` (R249) -/
  | wdraw (d a : BitVec 5)
  /-- `wret` (R250) -/
  | wret (d a : BitVec 5)
  /-- `waudit` (R251) -/
  | waudit (d a : BitVec 5)
  /-- `qwatch` (R254) -/
  | qwatch (d a : BitVec 5) (m : BitVec 1) (t : BitVec 8)
  /-- `qnew` (R252) -/
  | qnew (d a k : BitVec 5)
  /-- `qenq` (R244) -/
  | qenq (d a p : BitVec 5) (h : BitVec 4) (f : BitVec 1)
  /-- `qdeq` (R246) -/
  | qdeq (d a : BitVec 5) (h : BitVec 4)
  /-- `qtry` (R246) -/
  | qtry (d a : BitVec 5) (h : BitVec 4)
  /-- `qfree` (R253) -/
  | qfree (d a : BitVec 5)
  /-- `rackb` (R255) -/
  | rackb (d a : BitVec 5) (v : BitVec 2)
  /-- `bar` (R255) -/
  | bar (d a : BitVec 5) (v : BitVec 2)
  /-- `mcst` (R245) -/
  | mcst (d a p : BitVec 5) (h : BitVec 4) (f : BitVec 1)
  -- Futures, continuations and cordons (12).
  /-- `spawn` (R290) -/
  | spawn (d a p : BitVec 5) (h : BitVec 4) (f : BitVec 1)
  /-- `fget` (R291) -/
  | fget (d a : BitVec 5) (x : BitVec 1)
  /-- `fset` (R292) -/
  | fset (d a b : BitVec 5)
  /-- `fref` (R293) -/
  | fref (d a : BitVec 5) (m : BitVec 2)
  /-- `fdrop` (R293) -/
  | fdrop (a : BitVec 5)
  /-- `fpoll` (R293) -/
  | fpoll (d a : BitVec 5)
  /-- `sync` (R294) -/
  | sync (m : BitVec 19) (x : BitVec 1)
  /-- `suspend` (R294) -/
  | suspend (q : BitVec 4) (m : BitVec 15) (x : BitVec 1)
  /-- `yield` (R294) -/
  | yield (m : BitVec 19) (x : BitVec 1)
  /-- `cordon` (R296) -/
  | cordon (d n : BitVec 5)
  /-- `uncordon` (R297) -/
  | uncordon
  /-- `qend` (R297) -/
  | qend
  -- Vector accesses and streams (13).
  /-- `vld` (R320) -/
  | vld (d b : BitVec 5) (h : BitVec 4) (o : Ord) (c : Scope) (n : Hint)
  /-- `vst` (R320) -/
  | vst (d b : BitVec 5) (h : BitVec 4) (o : Ord) (c : Scope) (n : Hint)
  /-- `vgath` (R321) -/
  | vgath (d a b : BitVec 5) (p : BitVec 3) (t : BitVec 2)
  /-- `vscat` (R321) -/
  | vscat (d a b : BitVec 5) (p : BitVec 3) (t : BitVec 2)
  /-- `vamo` (R322) -/
  | vamo (d : BitVec 5) (o : BitVec 2) (b : BitVec 5) (p : BitVec 3) (t : BitVec 2)
  /-- `sbind` (R324) -/
  | sbind (n : BitVec 2) (a : BitVec 5) (r : BitVec 1)
  /-- `sfree` (R327) -/
  | sfree (d : BitVec 5) (n : BitVec 2)
  /-- `vsave` (R330) -/
  | vsave (d a : BitVec 5)
  /-- `vrest` (R331) -/
  | vrest (d a : BitVec 5)
  -- Copy engine and presses (15).
  /-- `copy` (R359) -/
  | copy (d a b : BitVec 5) (h : BitVec 4)
  /-- `copys` (R359) -/
  | copys (a b : BitVec 5) (h : BitVec 4)
  /-- `copyx` (R343) -/
  | copyx (a b : BitVec 5) (o : BitVec 1) (h : BitVec 4)
  /-- `ttpost` (R360) -/
  | ttpost (d a b : BitVec 5) (h : BitVec 4)
  /-- `caskopen` (R355) -/
  | caskopen (m : BitVec 2)
  /-- `caskseal` (R356) -/
  | caskseal (m : BitVec 2)
  -- System words (06).
  /-- `idle` (R154) -/
  | idle
  /-- `plbw` (R155) -/
  | plbw (d a b : BitVec 5)
  /-- `plbinv` (R156) -/
  | plbinv (d a : BitVec 5) (m : BitVec 2)
  /-- `preempt` (R158) -/
  | preempt (d a : BitVec 5) (m : BitVec 1)
  /-- `ctxsave` (R159) -/
  | ctxsave (d a : BitVec 5)
  /-- `ctxload` (R160) -/
  | ctxload (d a : BitVec 5)
  /-- `wvint` (R162) -/
  | wvint (d : BitVec 5)
  /-- `errinj` (R163) -/
  | errinj (d a : BitVec 5) (k : BitVec 3)
  -- Keys, scrub and assignment (17).
  /-- `kload` (R384) -/
  | kload (d a : BitVec 5) (e : BitVec 6)
  /-- `kzero` (R385) -/
  | kzero (d : BitVec 5) (e : BitVec 6)
  /-- `scrub` (R386) -/
  | scrub (d a b : BitVec 5) (m : BitVec 1)
  /-- `assign` (R387) -/
  | assign (d a b : BitVec 5)
  /-- `release` (R388) -/
  | release (d : BitVec 5)
  /-- `linkkey` (R384) -/
  | linkkey (d a k : BitVec 5)
  -- Steps of the machine that no word encodes (95).
  /-- `PREEMPT_TRAP` (R142) -/
  | preemptTrap
  /-- `REGION_EVENT_TRAP` (R140) -/
  | regionEventTrap
  /-- `YIELD_REQUEST_ARRIVAL` (R158) -/
  | yieldRequestArrival
  /-- `DIVIDE_RESULT` (R84) -/
  | divideResult
  /-- `MEMORY_REPLY` (R186) -/
  | memoryReply
  /-- `STORE_ACKNOWLEDGE` (R186) -/
  | storeAcknowledge
  /-- `REMOTE_ACCESS` (R176) -/
  | remoteAccess
  /-- `MIGRATION_ARRIVAL` (R177) -/
  | migrationArrival
  /-- `FORWARD_ENTRY_EXPIRE` (R177) -/
  | forwardEntryExpire
  /-- `ATOMIC_FORWARD` (R184) -/
  | atomicForward
  /-- `ATOMIC_RETRANSMIT` (R190) -/
  | atomicRetransmit
  /-- `PARK_WAKE` (R181) -/
  | parkWake
  /-- `PARK_TIMEOUT` (R181) -/
  | parkTimeout
  /-- `WAITA_WAKE` (R192) -/
  | waitaWake
  /-- `CASK_REFRESH_START` (R170) -/
  | caskRefreshStart
  /-- `CASK_REFRESH_END` (R170) -/
  | caskRefreshEnd
  /-- `HANDLE_TICKET` (R200) -/
  | handleTicket
  /-- `MESSAGE_ACCEPT` (R221) -/
  | messageAccept
  /-- `SEND_CREDIT_RETURN` (R222) -/
  | sendCreditReturn
  /-- `INBOX_ENTRY_START` (R223) -/
  | inboxEntryStart
  /-- `SPILL_RETRY` (R225) -/
  | spillRetry
  /-- `START_ACCEPT` (R278) -/
  | startAccept
  /-- `SLICE_QUEUE_ACCEPT` (R233) -/
  | sliceQueueAccept
  /-- `MCSTDONE` (R245) -/
  | mcstdone
  /-- `DRAW_REQUEST` (R226) -/
  | drawRequest
  /-- `DRAW_GRANT` (R227) -/
  | drawGrant
  /-- `WEIGHT_RETURN` (R227) -/
  | weightReturn
  /-- `QUIESCENCE_DEADLINE` (R231) -/
  | quiescenceDeadline
  /-- `POP_REQUEST` (R280) -/
  | popRequest
  /-- `POP_SERVE` (R280) -/
  | popServe
  /-- `POP_WITHDRAW` (R280) -/
  | popWithdraw
  /-- `GOVERNOR_EVALUATE` (R281) -/
  | governorEvaluate
  /-- `TRIGGER` (R368) -/
  | trigger
  /-- `QUANTUM_END` (R284) -/
  | quantumEnd
  /-- `RECLAIM_MARK` (R267) -/
  | reclaimMark
  /-- `FRAME_RETURN` (R273) -/
  | frameReturn
  /-- `STREAM_FETCH` (R326) -/
  | streamFetch
  /-- `COPY_VALIDATE` (R340) -/
  | copyValidate
  /-- `COPY_CHUNK` (R341) -/
  | copyChunk
  /-- `COPYDONE` (R345) -/
  | copydone
  /-- `TILE_TASK_ISSUE` (R352) -/
  | tileTaskIssue
  /-- `TILEDONE` (R352) -/
  | tiledone
  /-- `TILE_TASK_ABORT` (R353) -/
  | tileTaskAbort
  /-- `HELD_MESSAGE_RELEASE` (R163) -/
  | heldMessageRelease
  /-- `GATEWAY_TIMEOUT` (R221) -/
  | gatewayTimeout
  /-- `KEY_MARKER_ACCEPT` (R372) -/
  | keyMarkerAccept
  /-- `KEYDUE` (R372) -/
  | keydue
  /-- `KEY_EXHAUSTED` (R372) -/
  | keyExhausted
  /-- `FLIT_AUTH_FAIL` (R373) -/
  | flitAuthFail
  /-- `REDUCTION_COMBINE` (R370) -/
  | reductionCombine
  /-- `REDUCTION_ABORT` (R370) -/
  | reductionAbort
  /-- `REDCFG_WRITE` (R371) -/
  | redcfgWrite
  /-- `DEVICE_REGISTER_WRITE` (R366) -/
  | deviceRegisterWrite
  /-- `LCSTATE_WRITE` (R376) -/
  | lcstateWrite
  /-- `ISOLATE_WRITE` (R381) -/
  | isolateWrite
  /-- `SUPERGROUP_REPAIR` (R11) -/
  | supergroupRepair
  /-- `HOST_READ` (R367) -/
  | hostRead
  /-- `HOST_WRITE` (R367) -/
  | hostWrite
  /-- `SCRUB_LINE` (R379) -/
  | scrubLine
  /-- `COLD_RESET` (R377) -/
  | coldReset
  /-- `WARM_RESET` (R377) -/
  | warmReset
  /-- `SUPERGROUP_RESET` (R377) -/
  | supergroupReset
  /-- `CLOCK_STEP_DOWN` (R382) -/
  | clockStepDown
  /-- `ILLEGAL_INSTRUCTION` (R74) -/
  | illegalInstruction
  /-- `FETCH_FAULT` (R54) -/
  | fetchFault
  /-- `SOFT_ERROR` (R185) -/
  | softError
  /-- `FABRIC_ACCESS` (R369) -/
  | fabricAccess
  /-- `MEMBER_REGISTRATION` (R371) -/
  | memberRegistration
  /-- `COOLANT_BELOW_LIMIT` (R382) -/
  | coolantBelowLimit
  deriving DecidableEq, Repr

end Sys2Proof
end

