-- ==== Sys2Proof/Decode.lean ====
section
/-!
DEFINITION. Decoding and encoding of the words of a bundle (03 R48, R67-R74; the bit tables of the class chapters).
A word either decodes to an instruction or is rejected by name: an unassigned opcode, or a reserved field that is not
zero. Values of a field that an instruction does not accept (reason 6) decode, and the instruction traps at issue.
-/
namespace Sys2Proof

/-- Why a word is no instruction: the two reasons of Table 3-3 that the word alone shows (03 R74). -/
inductive Reject where
  /-- Reason 0: the opcode is not assigned. -/
  | opcode
  /-- Reason 1: a reserved field is not zero. -/
  | reserved
  deriving DecidableEq, Repr

/-- A decoded word: bit L, the stall count S and the instruction (03 R48). -/
structure Decoded where
  l : BitVec 1
  s : BitVec 3
  i : Instr
  deriving DecidableEq, Repr

/-- A field of the operand bits 19:0. -/
abbrev fld (x : BitVec 20) (lo len : Nat) : BitVec len := x.extractLsb' lo len
/-- A reserved field is zero. -/
abbrev zero (x : BitVec 20) (lo len : Nat) : Bool := decide (fld x lo len = 0)
/-- The row of an assigned opcode: whether the word's reserved fields are zero, and its instruction. -/
def need (ok : Bool) (i : Instr) : Option (Bool × Instr) := some (ok, i)

/-- The A-class words by opcode (03 R73). -/
def decodeA (op : Nat) (x : BitVec 20) : Option (Bool × Instr) :=
  match op with
  | 0x00 => need (zero x 0 20) .nopA
  | 0x01 => need (zero x 0 5) (.add (fld x 15 5) (fld x 10 5) (fld x 5 5))
  | 0x02 => need (zero x 0 5) (.sub (fld x 15 5) (fld x 10 5) (fld x 5 5))
  | 0x03 => need true (.addi (fld x 15 5) (fld x 10 5) (fld x 0 10))
  | 0x04 => need (zero x 0 5) (.mul (fld x 15 5) (fld x 10 5) (fld x 5 5))
  | 0x05 => need (zero x 0 5) (.mulh (fld x 15 5) (fld x 10 5) (fld x 5 5))
  | 0x06 => need (zero x 0 5) (.mulhu (fld x 15 5) (fld x 10 5) (fld x 5 5))
  | 0x07 => need (zero x 0 5) (.div (fld x 15 5) (fld x 10 5) (fld x 5 5))
  | 0x08 => need (zero x 0 5) (.divu (fld x 15 5) (fld x 10 5) (fld x 5 5))
  | 0x09 => need (zero x 0 5) (.rem (fld x 15 5) (fld x 10 5) (fld x 5 5))
  | 0x0A => need (zero x 0 5) (.remu (fld x 15 5) (fld x 10 5) (fld x 5 5))
  | 0x0B => need (zero x 0 5) (.and (fld x 15 5) (fld x 10 5) (fld x 5 5))
  | 0x0C => need (zero x 0 5) (.or (fld x 15 5) (fld x 10 5) (fld x 5 5))
  | 0x0D => need (zero x 0 5) (.xor (fld x 15 5) (fld x 10 5) (fld x 5 5))
  | 0x0E => need (zero x 0 5) (.andn (fld x 15 5) (fld x 10 5) (fld x 5 5))
  | 0x0F => need true (.andi (fld x 15 5) (fld x 10 5) (fld x 0 10))
  | 0x10 => need true (.ori (fld x 15 5) (fld x 10 5) (fld x 0 10))
  | 0x11 => need true (.xori (fld x 15 5) (fld x 10 5) (fld x 0 10))
  | 0x12 => need (zero x 0 5) (.shl (fld x 15 5) (fld x 10 5) (fld x 5 5))
  | 0x13 => need (zero x 0 5) (.shr (fld x 15 5) (fld x 10 5) (fld x 5 5))
  | 0x14 => need (zero x 0 5) (.sra (fld x 15 5) (fld x 10 5) (fld x 5 5))
  | 0x15 => need true (.shli (fld x 15 5) (fld x 10 5) (fld x 0 10))
  | 0x16 => need true (.shri (fld x 15 5) (fld x 10 5) (fld x 0 10))
  | 0x17 => need true (.srai (fld x 15 5) (fld x 10 5) (fld x 0 10))
  | 0x18 => need (zero x 0 5) (.rot (fld x 15 5) (fld x 10 5) (fld x 5 5))
  | 0x19 => need true (.roti (fld x 15 5) (fld x 10 5) (fld x 0 10))
  | 0x1A => need (zero x 0 10) (.clz (fld x 15 5) (fld x 10 5))
  | 0x1B => need (zero x 0 10) (.ctz (fld x 15 5) (fld x 10 5))
  | 0x1C => need (zero x 0 10) (.popc (fld x 15 5) (fld x 10 5))
  | 0x1D => need (zero x 0 5) (.min (fld x 15 5) (fld x 10 5) (fld x 5 5))
  | 0x1E => need (zero x 0 5) (.max (fld x 15 5) (fld x 10 5) (fld x 5 5))
  | 0x1F => need (zero x 0 5) (.minu (fld x 15 5) (fld x 10 5) (fld x 5 5))
  | 0x20 => need (zero x 0 5) (.maxu (fld x 15 5) (fld x 10 5) (fld x 5 5))
  | 0x21 => need (zero x 3 2) (.sel (fld x 15 5) (fld x 10 5) (fld x 5 5) (fld x 0 3))
  | 0x22 => need (zero x 0 5) (.cmpEq (fld x 15 5) (fld x 10 5) (fld x 5 5))
  | 0x23 => need (zero x 0 5) (.cmpNe (fld x 15 5) (fld x 10 5) (fld x 5 5))
  | 0x24 => need (zero x 0 5) (.cmpLt (fld x 15 5) (fld x 10 5) (fld x 5 5))
  | 0x25 => need (zero x 0 5) (.cmpLtu (fld x 15 5) (fld x 10 5) (fld x 5 5))
  | 0x26 => need (zero x 0 5) (.cmpLe (fld x 15 5) (fld x 10 5) (fld x 5 5))
  | 0x27 => need (zero x 0 5) (.cmpLeu (fld x 15 5) (fld x 10 5) (fld x 5 5))
  | 0x28 => need (zero x 18 2) (.cmpp (fld x 15 3) (fld x 10 5) (fld x 5 5) (fld x 3 2) (fld x 0 3))
  | 0x29 => need true (.movi (fld x 15 5) (fld x 0 15))
  | 0x2A => need true (.movs (fld x 15 5) (fld x 0 15))
  | 0x2B => need true (.addsh (fld x 15 5) (fld x 10 5) (fld x 5 5) (fld x 0 5))
  | 0x2C => need (zero x 1 4) (.bfx (fld x 15 5) (fld x 10 5) (fld x 5 5) (fld x 0 1))
  | 0x2D => need (zero x 0 5) (.bfi (fld x 15 5) (fld x 10 5) (fld x 5 5))
  | 0x30 => need true (.fadd (fld x 15 5) (fld x 10 5) (fld x 5 5) (.ofBits (fld x 3 2)) (fld x 0 3))
  | 0x31 => need true (.fsub (fld x 15 5) (fld x 10 5) (fld x 5 5) (.ofBits (fld x 3 2)) (fld x 0 3))
  | 0x32 => need true (.fmul (fld x 15 5) (fld x 10 5) (fld x 5 5) (.ofBits (fld x 3 2)) (fld x 0 3))
  | 0x33 => need true (.fdiv (fld x 15 5) (fld x 10 5) (fld x 5 5) (.ofBits (fld x 3 2)) (fld x 0 3))
  | 0x34 => need (zero x 5 5) (.fsqrt (fld x 15 5) (fld x 10 5) (.ofBits (fld x 3 2)) (fld x 0 3))
  | 0x35 => need (zero x 0 3) (.fmin (fld x 15 5) (fld x 10 5) (fld x 5 5) (.ofBits (fld x 3 2)))
  | 0x36 => need (zero x 0 3) (.fmax (fld x 15 5) (fld x 10 5) (fld x 5 5) (.ofBits (fld x 3 2)))
  | 0x37 => need true (.fma (fld x 15 5) (fld x 10 5) (fld x 5 5) (.ofBits (fld x 3 2)) (fld x 0 3))
  | 0x38 => need true (.fms (fld x 15 5) (fld x 10 5) (fld x 5 5) (.ofBits (fld x 3 2)) (fld x 0 3))
  | 0x39 => need true (.fnma (fld x 15 5) (fld x 10 5) (fld x 5 5) (.ofBits (fld x 3 2)) (fld x 0 3))
  | 0x3A => need true (.fnms (fld x 15 5) (fld x 10 5) (fld x 5 5) (.ofBits (fld x 3 2)) (fld x 0 3))
  | 0x3B => need (zero x 0 3) (.fcmp (fld x 15 5) (fld x 10 5) (fld x 5 5) (.ofBits (fld x 3 2)))
  | 0x3C => need (zero x 0 3 && zero x 5 5) (.fclass (fld x 15 5) (fld x 10 5) (.ofBits (fld x 3 2)))
  | 0x3D => need (zero x 0 3) (.fsgnj (fld x 15 5) (fld x 10 5) (fld x 5 5) (.ofBits (fld x 3 2)))
  | 0x3E => need (zero x 0 3) (.fsgnn (fld x 15 5) (fld x 10 5) (fld x 5 5) (.ofBits (fld x 3 2)))
  | 0x3F => need (zero x 0 3) (.fsgnx (fld x 15 5) (fld x 10 5) (fld x 5 5) (.ofBits (fld x 3 2)))
  | 0x40 => need (zero x 5 5) (.fcvtIf (fld x 15 5) (fld x 10 5) (.ofBits (fld x 3 2)) (fld x 0 3))
  | 0x41 => need (zero x 5 5) (.fcvtFi (fld x 15 5) (fld x 10 5) (.ofBits (fld x 3 2)) (fld x 0 3))
  | 0x42 => need (zero x 8 2) (.fcvtFf (fld x 15 5) (fld x 10 5) (fld x 7 1) (.ofBits (fld x 5 2)) (.ofBits (fld x 3 2)) (fld x 0 3))
  | 0x43 => need (zero x 0 3) (.fmvx (fld x 15 5) (fld x 10 5) (fld x 5 5) (.ofBits (fld x 3 2)))
  | 0x50 => need true (.vadd (fld x 15 5) (fld x 10 5) (fld x 5 5) (fld x 2 3) (fld x 0 2))
  | 0x51 => need true (.vsub (fld x 15 5) (fld x 10 5) (fld x 5 5) (fld x 2 3) (fld x 0 2))
  | 0x52 => need true (.vmul (fld x 15 5) (fld x 10 5) (fld x 5 5) (fld x 2 3) (fld x 0 2))
  | 0x53 => need true (.vfma (fld x 15 5) (fld x 10 5) (fld x 5 5) (fld x 2 3) (fld x 0 2))
  | 0x54 => need true (.vfms (fld x 15 5) (fld x 10 5) (fld x 5 5) (fld x 2 3) (fld x 0 2))
  | 0x55 => need true (.vfnma (fld x 15 5) (fld x 10 5) (fld x 5 5) (fld x 2 3) (fld x 0 2))
  | 0x56 => need (zero x 5 5) (.vrcp (fld x 15 5) (fld x 10 5) (fld x 2 3) (fld x 0 2))
  | 0x57 => need (zero x 5 5) (.vrsqrt (fld x 15 5) (fld x 10 5) (fld x 2 3) (fld x 0 2))
  | 0x58 => need (zero x 5 5) (.vexp2 (fld x 15 5) (fld x 10 5) (fld x 2 3) (fld x 0 2))
  | 0x59 => need true (.vmin (fld x 15 5) (fld x 10 5) (fld x 5 5) (fld x 2 3) (fld x 0 2))
  | 0x5A => need true (.vmax (fld x 15 5) (fld x 10 5) (fld x 5 5) (fld x 2 3) (fld x 0 2))
  | 0x5B => need (zero x 5 5) (.vabs (fld x 15 5) (fld x 10 5) (fld x 2 3) (fld x 0 2))
  | 0x5C => need (zero x 5 5) (.vneg (fld x 15 5) (fld x 10 5) (fld x 2 3) (fld x 0 2))
  | 0x5D => need true (.vand (fld x 15 5) (fld x 10 5) (fld x 5 5) (fld x 2 3) (fld x 0 2))
  | 0x5E => need true (.vor (fld x 15 5) (fld x 10 5) (fld x 5 5) (fld x 2 3) (fld x 0 2))
  | 0x5F => need true (.vxor (fld x 15 5) (fld x 10 5) (fld x 5 5) (fld x 2 3) (fld x 0 2))
  | 0x60 => need true (.vandn (fld x 15 5) (fld x 10 5) (fld x 5 5) (fld x 2 3) (fld x 0 2))
  | 0x61 => need true (.vshl (fld x 15 5) (fld x 10 5) (fld x 5 5) (fld x 2 3) (fld x 0 2))
  | 0x62 => need true (.vshr (fld x 15 5) (fld x 10 5) (fld x 5 5) (fld x 2 3) (fld x 0 2))
  | 0x63 => need true (.vsra (fld x 15 5) (fld x 10 5) (fld x 5 5) (fld x 2 3) (fld x 0 2))
  | 0x64 => need true (.vshli (fld x 15 5) (fld x 10 5) (fld x 5 5) (fld x 2 3) (fld x 0 2))
  | 0x65 => need true (.vshri (fld x 15 5) (fld x 10 5) (fld x 5 5) (fld x 2 3) (fld x 0 2))
  | 0x66 => need true (.vsrai (fld x 15 5) (fld x 10 5) (fld x 5 5) (fld x 2 3) (fld x 0 2))
  | 0x67 => need (zero x 18 2) (.vceq (fld x 15 3) (fld x 10 5) (fld x 5 5) (fld x 2 3) (fld x 0 2))
  | 0x68 => need (zero x 18 2) (.vcne (fld x 15 3) (fld x 10 5) (fld x 5 5) (fld x 2 3) (fld x 0 2))
  | 0x69 => need (zero x 18 2) (.vclt (fld x 15 3) (fld x 10 5) (fld x 5 5) (fld x 2 3) (fld x 0 2))
  | 0x6A => need (zero x 18 2) (.vcle (fld x 15 3) (fld x 10 5) (fld x 5 5) (fld x 2 3) (fld x 0 2))
  | 0x6B => need true (.vsel (fld x 15 5) (fld x 10 5) (fld x 5 5) (fld x 2 3) (fld x 0 2))
  | 0x6C => need true (.vperm (fld x 15 5) (fld x 10 5) (fld x 5 5) (fld x 2 3) (fld x 0 2))
  | 0x6D => need (zero x 5 5) (.vbcast (fld x 15 5) (fld x 10 5) (fld x 2 3) (fld x 0 2))
  | 0x6E => need (zero x 2 3) (.vext (fld x 15 5) (fld x 10 5) (fld x 5 5) (fld x 0 2))
  | 0x6F => need (zero x 2 3) (.vins (fld x 15 5) (fld x 10 5) (fld x 5 5) (fld x 0 2))
  | 0x70 => need (zero x 5 5) (.vredAdd (fld x 15 5) (fld x 10 5) (fld x 2 3) (fld x 0 2))
  | 0x71 => need (zero x 5 5) (.vredMax (fld x 15 5) (fld x 10 5) (fld x 2 3) (fld x 0 2))
  | 0x72 => need (zero x 5 5) (.vredMin (fld x 15 5) (fld x 10 5) (fld x 2 3) (fld x 0 2))
  | 0x73 => need (zero x 5 5) (.vredOr (fld x 15 5) (fld x 10 5) (fld x 2 3) (fld x 0 2))
  | 0x74 => need (zero x 7 2) (.vcvt (fld x 15 5) (fld x 10 5) (fld x 9 1) (fld x 5 2) (fld x 2 3) (fld x 0 2))
  | 0x75 => need (zero x 2 3 && zero x 6 4) (.vcvtb (fld x 15 5) (fld x 10 5) (fld x 5 1) (fld x 0 2))
  | 0x76 => need (zero x 0 5 && zero x 8 2 && zero x 13 2 && zero x 18 2) (.vpand (fld x 15 3) (fld x 10 3) (fld x 5 3))
  | 0x77 => need (zero x 0 5 && zero x 8 2 && zero x 13 2 && zero x 18 2) (.vpor (fld x 15 3) (fld x 10 3) (fld x 5 3))
  | 0x78 => need (zero x 0 10 && zero x 13 2 && zero x 18 2) (.vpnot (fld x 15 3) (fld x 10 3))
  | 0x79 => need (zero x 5 5 && zero x 13 2) (.vpopc (fld x 15 5) (fld x 10 3) (fld x 2 3) (fld x 0 2))
  | 0x7A => need (zero x 5 5 && zero x 13 2) (.viota (fld x 15 5) (fld x 10 3) (fld x 2 3) (fld x 0 2))
  | 0x7B => need (zero x 2 3 && zero x 6 4 && (if fld x 5 1 = 0#1 then zero x 18 2 else zero x 13 2)) (.vmovp (fld x 15 5) (fld x 10 5) (fld x 5 1) (fld x 0 2))
  | 0x7C => need true (.vsat (fld x 15 5) (fld x 10 5) (fld x 5 5) (fld x 2 3) (fld x 0 2))
  | 0x7D => need true (.vdot4 (fld x 15 5) (fld x 10 5) (fld x 5 5) (fld x 2 3) (fld x 0 2))
  | _ => none

/-- The C-class words by opcode (03 R72). -/
def decodeC (op : Nat) (x : BitVec 20) : Option (Bool × Instr) :=
  match op with
  | 0x00 => need (zero x 0 20) .nop
  | 0x01 => need true (.brEq (fld x 15 5) (fld x 10 5) (fld x 0 10))
  | 0x02 => need true (.brNe (fld x 15 5) (fld x 10 5) (fld x 0 10))
  | 0x03 => need true (.brLt (fld x 15 5) (fld x 10 5) (fld x 0 10))
  | 0x04 => need true (.brLtu (fld x 15 5) (fld x 10 5) (fld x 0 10))
  | 0x05 => need true (.brGe (fld x 15 5) (fld x 10 5) (fld x 0 10))
  | 0x06 => need true (.brGeu (fld x 15 5) (fld x 10 5) (fld x 0 10))
  | 0x07 => need (zero x 12 3 && zero x 18 2) (.brp (fld x 15 3) (fld x 10 2) (fld x 0 10))
  | 0x08 => need true (.jmp (fld x 0 20))
  | 0x09 => need true (.jal (fld x 0 20))
  | 0x0A => need true (.jr (fld x 15 5) (fld x 10 5) (fld x 0 10))
  | 0x0B => need true (.trap (fld x 0 20))
  | 0x0C => need (zero x 0 20) .tret
  | 0x0D => need (zero x 10 5) (.csrr (fld x 15 5) (fld x 0 10))
  | 0x0E => need (zero x 15 5) (.csrw (fld x 10 5) (fld x 0 10))
  | 0x0F => need true (.csrx (fld x 15 5) (fld x 10 5) (fld x 0 10))
  | 0x10 => need true (.ldB (fld x 15 5) (fld x 10 5) (fld x 6 4) (.ofBits (fld x 4 2)) (.ofBits (fld x 2 2)) (.ofBits (fld x 0 2)))
  | 0x11 => need true (.ldBz (fld x 15 5) (fld x 10 5) (fld x 6 4) (.ofBits (fld x 4 2)) (.ofBits (fld x 2 2)) (.ofBits (fld x 0 2)))
  | 0x12 => need true (.ldH (fld x 15 5) (fld x 10 5) (fld x 6 4) (.ofBits (fld x 4 2)) (.ofBits (fld x 2 2)) (.ofBits (fld x 0 2)))
  | 0x13 => need true (.ldHz (fld x 15 5) (fld x 10 5) (fld x 6 4) (.ofBits (fld x 4 2)) (.ofBits (fld x 2 2)) (.ofBits (fld x 0 2)))
  | 0x14 => need true (.ldW (fld x 15 5) (fld x 10 5) (fld x 6 4) (.ofBits (fld x 4 2)) (.ofBits (fld x 2 2)) (.ofBits (fld x 0 2)))
  | 0x15 => need true (.ldWz (fld x 15 5) (fld x 10 5) (fld x 6 4) (.ofBits (fld x 4 2)) (.ofBits (fld x 2 2)) (.ofBits (fld x 0 2)))
  | 0x16 => need true (.ldD (fld x 15 5) (fld x 10 5) (fld x 6 4) (.ofBits (fld x 4 2)) (.ofBits (fld x 2 2)) (.ofBits (fld x 0 2)))
  | 0x17 => need true (.ldoB (fld x 15 5) (fld x 10 5) (fld x 0 10))
  | 0x18 => need true (.ldoBz (fld x 15 5) (fld x 10 5) (fld x 0 10))
  | 0x19 => need true (.ldoH (fld x 15 5) (fld x 10 5) (fld x 0 10))
  | 0x1A => need true (.ldoHz (fld x 15 5) (fld x 10 5) (fld x 0 10))
  | 0x1B => need true (.ldoW (fld x 15 5) (fld x 10 5) (fld x 0 10))
  | 0x1C => need true (.ldoWz (fld x 15 5) (fld x 10 5) (fld x 0 10))
  | 0x1D => need true (.ldoD (fld x 15 5) (fld x 10 5) (fld x 0 10))
  | 0x1E => need true (.stB (fld x 15 5) (fld x 10 5) (fld x 6 4) (.ofBits (fld x 4 2)) (.ofBits (fld x 2 2)) (.ofBits (fld x 0 2)))
  | 0x1F => need true (.stH (fld x 15 5) (fld x 10 5) (fld x 6 4) (.ofBits (fld x 4 2)) (.ofBits (fld x 2 2)) (.ofBits (fld x 0 2)))
  | 0x20 => need true (.stW (fld x 15 5) (fld x 10 5) (fld x 6 4) (.ofBits (fld x 4 2)) (.ofBits (fld x 2 2)) (.ofBits (fld x 0 2)))
  | 0x21 => need true (.stD (fld x 15 5) (fld x 10 5) (fld x 6 4) (.ofBits (fld x 4 2)) (.ofBits (fld x 2 2)) (.ofBits (fld x 0 2)))
  | 0x22 => need true (.stoB (fld x 15 5) (fld x 10 5) (fld x 0 10))
  | 0x23 => need true (.stoH (fld x 15 5) (fld x 10 5) (fld x 0 10))
  | 0x24 => need true (.stoW (fld x 15 5) (fld x 10 5) (fld x 0 10))
  | 0x25 => need true (.stoD (fld x 15 5) (fld x 10 5) (fld x 0 10))
  | 0x26 => need true (.amoAdd (fld x 15 5) (fld x 10 5) (fld x 6 4) (.ofBits (fld x 4 2)) (.ofBits (fld x 2 2)) (.ofBits (fld x 0 2)))
  | 0x27 => need true (.amoAnd (fld x 15 5) (fld x 10 5) (fld x 6 4) (.ofBits (fld x 4 2)) (.ofBits (fld x 2 2)) (.ofBits (fld x 0 2)))
  | 0x28 => need true (.amoOr (fld x 15 5) (fld x 10 5) (fld x 6 4) (.ofBits (fld x 4 2)) (.ofBits (fld x 2 2)) (.ofBits (fld x 0 2)))
  | 0x29 => need true (.amoXor (fld x 15 5) (fld x 10 5) (fld x 6 4) (.ofBits (fld x 4 2)) (.ofBits (fld x 2 2)) (.ofBits (fld x 0 2)))
  | 0x2A => need true (.amoMax (fld x 15 5) (fld x 10 5) (fld x 6 4) (.ofBits (fld x 4 2)) (.ofBits (fld x 2 2)) (.ofBits (fld x 0 2)))
  | 0x2B => need true (.amoMin (fld x 15 5) (fld x 10 5) (fld x 6 4) (.ofBits (fld x 4 2)) (.ofBits (fld x 2 2)) (.ofBits (fld x 0 2)))
  | 0x2C => need true (.amoMaxu (fld x 15 5) (fld x 10 5) (fld x 6 4) (.ofBits (fld x 4 2)) (.ofBits (fld x 2 2)) (.ofBits (fld x 0 2)))
  | 0x2D => need true (.amoMinu (fld x 15 5) (fld x 10 5) (fld x 6 4) (.ofBits (fld x 4 2)) (.ofBits (fld x 2 2)) (.ofBits (fld x 0 2)))
  | 0x2E => need true (.amoSwap (fld x 15 5) (fld x 10 5) (fld x 6 4) (.ofBits (fld x 4 2)) (.ofBits (fld x 2 2)) (.ofBits (fld x 0 2)))
  | 0x2F => need true (.cas (fld x 15 5) (fld x 10 5) (fld x 6 4) (.ofBits (fld x 4 2)) (.ofBits (fld x 2 2)) (.ofBits (fld x 0 2)))
  | 0x30 => need (zero x 2 13 && zero x 19 1) (.hnew (fld x 15 4) (.ofBits (fld x 0 2)))
  | 0x31 => need (zero x 2 8 && zero x 14 1 && zero x 19 1) (.hfork (fld x 15 4) (fld x 10 4) (.ofBits (fld x 0 2)))
  | 0x32 => need (zero x 2 8 && zero x 14 1 && zero x 19 1) (.hjoin (fld x 15 4) (fld x 10 4) (.ofBits (fld x 0 2)))
  | 0x33 => need (zero x 0 15 && zero x 19 1) (.hfree (fld x 15 4))
  | 0x34 => need (zero x 2 13 && zero x 19 1) (.hwait (fld x 15 4) (.ofBits (fld x 0 2)))
  | 0x35 => need (zero x 2 18) (.fence (.ofBits (fld x 0 2)))
  | 0x36 => need (zero x 15 5) (.pref (fld x 10 5) (fld x 6 4) (.ofBits (fld x 4 2)) (.ofBits (fld x 2 2)) (.ofBits (fld x 0 2)))
  | 0x37 => need true (.waita (fld x 15 5) (fld x 10 5) (fld x 6 4) (.ofBits (fld x 4 2)) (.ofBits (fld x 2 2)) (.ofBits (fld x 0 2)))
  | 0x38 => need (zero x 3 7) (.genset (fld x 15 5) (fld x 10 5) (fld x 0 3))
  | 0x39 => need (zero x 1 9) (.migr (fld x 15 5) (fld x 10 5) (fld x 0 1))
  | 0x40 => need true (.send (fld x 15 5) (fld x 10 5) (fld x 5 5) (fld x 1 4) (fld x 0 1))
  | 0x41 => need (zero x 4 11) (.ibpop (fld x 15 5) (fld x 0 4))
  | 0x42 => need (zero x 0 15) (.ibpeek (fld x 15 5))
  | 0x43 => need (zero x 0 20) .endH
  | 0x44 => need (zero x 0 10) (.wdraw (fld x 15 5) (fld x 10 5))
  | 0x45 => need (zero x 0 10) (.wret (fld x 15 5) (fld x 10 5))
  | 0x46 => need (zero x 0 10) (.waudit (fld x 15 5) (fld x 10 5))
  | 0x47 => need (zero x 9 1) (.qwatch (fld x 15 5) (fld x 10 5) (fld x 8 1) (fld x 0 8))
  | 0x48 => need (zero x 5 5) (.qnew (fld x 15 5) (fld x 10 5) (fld x 0 5))
  | 0x49 => need true (.qenq (fld x 15 5) (fld x 10 5) (fld x 5 5) (fld x 1 4) (fld x 0 1))
  | 0x4A => need (zero x 4 6) (.qdeq (fld x 15 5) (fld x 10 5) (fld x 0 4))
  | 0x4B => need (zero x 4 6) (.qtry (fld x 15 5) (fld x 10 5) (fld x 0 4))
  | 0x4C => need (zero x 0 10) (.qfree (fld x 15 5) (fld x 10 5))
  | 0x4D => need (zero x 2 8) (.rackb (fld x 15 5) (fld x 10 5) (fld x 0 2))
  | 0x4E => need (zero x 2 8) (.bar (fld x 15 5) (fld x 10 5) (fld x 0 2))
  | 0x4F => need true (.mcst (fld x 15 5) (fld x 10 5) (fld x 5 5) (fld x 1 4) (fld x 0 1))
  | 0x50 => need true (.spawn (fld x 15 5) (fld x 10 5) (fld x 5 5) (fld x 1 4) (fld x 0 1))
  | 0x51 => need (zero x 1 9) (.fget (fld x 15 5) (fld x 10 5) (fld x 0 1))
  | 0x52 => need (zero x 0 5) (.fset (fld x 15 5) (fld x 10 5) (fld x 5 5))
  | 0x53 => need (zero x 2 8) (.fref (fld x 15 5) (fld x 10 5) (fld x 0 2))
  | 0x54 => need (zero x 0 10 && zero x 15 5) (.fdrop (fld x 10 5))
  | 0x55 => need (zero x 0 10) (.fpoll (fld x 15 5) (fld x 10 5))
  | 0x56 => need true (.sync (fld x 1 19) (fld x 0 1))
  | 0x57 => need true (.suspend (fld x 16 4) (fld x 1 15) (fld x 0 1))
  | 0x58 => need true (.yield (fld x 1 19) (fld x 0 1))
  | 0x59 => need (zero x 5 10) (.cordon (fld x 15 5) (fld x 0 5))
  | 0x5A => need (zero x 0 20) .uncordon
  | 0x5B => need (zero x 0 20) .qend
  | 0x60 => need true (.vld (fld x 15 5) (fld x 10 5) (fld x 6 4) (.ofBits (fld x 4 2)) (.ofBits (fld x 2 2)) (.ofBits (fld x 0 2)))
  | 0x61 => need true (.vst (fld x 15 5) (fld x 10 5) (fld x 6 4) (.ofBits (fld x 4 2)) (.ofBits (fld x 2 2)) (.ofBits (fld x 0 2)))
  | 0x62 => need true (.vgath (fld x 15 5) (fld x 10 5) (fld x 5 5) (fld x 2 3) (fld x 0 2))
  | 0x63 => need true (.vscat (fld x 15 5) (fld x 10 5) (fld x 5 5) (fld x 2 3) (fld x 0 2))
  | 0x64 => need (zero x 12 3) (.vamo (fld x 15 5) (fld x 10 2) (fld x 5 5) (fld x 2 3) (fld x 0 2))
  | 0x65 => need (zero x 1 9 && zero x 17 3) (.sbind (fld x 15 2) (fld x 10 5) (fld x 0 1))
  | 0x66 => need (zero x 0 10 && zero x 12 3) (.sfree (fld x 15 5) (fld x 10 2))
  | 0x67 => need (zero x 0 10) (.vsave (fld x 15 5) (fld x 10 5))
  | 0x68 => need (zero x 0 10) (.vrest (fld x 15 5) (fld x 10 5))
  | 0x6A => need (zero x 4 1) (.copy (fld x 15 5) (fld x 10 5) (fld x 5 5) (fld x 0 4))
  | 0x6B => need (zero x 4 1 && zero x 15 5) (.copys (fld x 10 5) (fld x 5 5) (fld x 0 4))
  | 0x6C => need (zero x 15 5) (.copyx (fld x 10 5) (fld x 5 5) (fld x 4 1) (fld x 0 4))
  | 0x6D => need (zero x 4 1) (.ttpost (fld x 15 5) (fld x 10 5) (fld x 5 5) (fld x 0 4))
  | 0x6E => need (zero x 2 18) (.caskopen (fld x 0 2))
  | 0x6F => need (zero x 2 18) (.caskseal (fld x 0 2))
  | 0x70 => need (zero x 0 20) .idle
  | 0x71 => need (zero x 0 5) (.plbw (fld x 15 5) (fld x 10 5) (fld x 5 5))
  | 0x72 => need (zero x 2 8) (.plbinv (fld x 15 5) (fld x 10 5) (fld x 0 2))
  | 0x73 => need (zero x 1 9) (.preempt (fld x 15 5) (fld x 10 5) (fld x 0 1))
  | 0x74 => need (zero x 0 10) (.ctxsave (fld x 15 5) (fld x 10 5))
  | 0x75 => need (zero x 0 10) (.ctxload (fld x 15 5) (fld x 10 5))
  | 0x76 => need (zero x 0 15) (.wvint (fld x 15 5))
  | 0x77 => need (zero x 3 7) (.errinj (fld x 15 5) (fld x 10 5) (fld x 0 3))
  | 0x78 => need (zero x 6 4) (.kload (fld x 15 5) (fld x 10 5) (fld x 0 6))
  | 0x79 => need (zero x 6 9) (.kzero (fld x 15 5) (fld x 0 6))
  | 0x7A => need (zero x 1 4) (.scrub (fld x 15 5) (fld x 10 5) (fld x 5 5) (fld x 0 1))
  | 0x7B => need (zero x 0 5) (.assign (fld x 15 5) (fld x 10 5) (fld x 5 5))
  | 0x7C => need (zero x 0 15) (.release (fld x 15 5))
  | 0x7D => need (zero x 5 5) (.linkkey (fld x 15 5) (fld x 10 5) (fld x 0 5))
  | _ => none

/-- Bit L of a word. -/
def wordL (w : W32) : BitVec 1 := w.extractLsb' 31 1
/-- Bit K of a word: 1 for the A class. -/
def wordK (w : W32) : BitVec 1 := w.extractLsb' 30 1
/-- The stall count of a word. -/
def wordS (w : W32) : BitVec 3 := w.extractLsb' 27 3
/-- The opcode of a word. -/
def wordOp (w : W32) : BitVec 7 := w.extractLsb' 20 7
/-- The operand bits of a word. -/
def wordX (w : W32) : BitVec 20 := w.extractLsb' 0 20

/-- The row that a word's class and opcode name, with its fields, whatever its reserved fields hold. -/
def decodeRow (k : BitVec 1) (op : BitVec 7) (x : BitVec 20) : Option (Bool × Instr) :=
  if k = 1#1 then decodeA op.toNat x else decodeC op.toNat x

/-- The instruction of a word by its class, opcode and operand bits. -/
def decodeKox (k : BitVec 1) (op : BitVec 7) (x : BitVec 20) : Except Reject Instr :=
  match decodeRow k op x with
  | none => .error .opcode
  | some (false, _) => .error .reserved
  | some (true, i) => .ok i

/-- The row of a word (03 R50, R51: the bundle checks go by the mnemonic). -/
def rowOf (w : W32) : Option Instr := (decodeRow (wordK w) (wordOp w) (wordX w)).map (·.2)

/-- The meaning of a word, whatever its bits: a decoded instruction or a named rejection. -/
def decodeWord (w : W32) : Except Reject Decoded :=
  match decodeKox (wordK w) (wordOp w) (wordX w) with
  | .ok i => .ok ⟨wordL w, wordS w, i⟩
  | .error r => .error r

/-- Class, opcode and operand bits of an instruction; none for a row that has no encoding. -/
def encodeKox (i : Instr) : Option (BitVec 1 × BitVec 7 × BitVec 20) :=
  match i with
  | .nop => some (0#1, 0x00#7, 0#20)
  | .nopA => some (1#1, 0x00#7, 0#20)
  | .add d a b => some (1#1, 0x01#7, d ++ a ++ b ++ 0#5)
  | .sub d a b => some (1#1, 0x02#7, d ++ a ++ b ++ 0#5)
  | .addi d a i => some (1#1, 0x03#7, d ++ a ++ i)
  | .mul d a b => some (1#1, 0x04#7, d ++ a ++ b ++ 0#5)
  | .mulh d a b => some (1#1, 0x05#7, d ++ a ++ b ++ 0#5)
  | .mulhu d a b => some (1#1, 0x06#7, d ++ a ++ b ++ 0#5)
  | .div d a b => some (1#1, 0x07#7, d ++ a ++ b ++ 0#5)
  | .divu d a b => some (1#1, 0x08#7, d ++ a ++ b ++ 0#5)
  | .rem d a b => some (1#1, 0x09#7, d ++ a ++ b ++ 0#5)
  | .remu d a b => some (1#1, 0x0A#7, d ++ a ++ b ++ 0#5)
  | .and d a b => some (1#1, 0x0B#7, d ++ a ++ b ++ 0#5)
  | .or d a b => some (1#1, 0x0C#7, d ++ a ++ b ++ 0#5)
  | .xor d a b => some (1#1, 0x0D#7, d ++ a ++ b ++ 0#5)
  | .andn d a b => some (1#1, 0x0E#7, d ++ a ++ b ++ 0#5)
  | .andi d a i => some (1#1, 0x0F#7, d ++ a ++ i)
  | .ori d a i => some (1#1, 0x10#7, d ++ a ++ i)
  | .xori d a i => some (1#1, 0x11#7, d ++ a ++ i)
  | .shl d a b => some (1#1, 0x12#7, d ++ a ++ b ++ 0#5)
  | .shr d a b => some (1#1, 0x13#7, d ++ a ++ b ++ 0#5)
  | .sra d a b => some (1#1, 0x14#7, d ++ a ++ b ++ 0#5)
  | .shli d a i => some (1#1, 0x15#7, d ++ a ++ i)
  | .shri d a i => some (1#1, 0x16#7, d ++ a ++ i)
  | .srai d a i => some (1#1, 0x17#7, d ++ a ++ i)
  | .rot d a b => some (1#1, 0x18#7, d ++ a ++ b ++ 0#5)
  | .roti d a i => some (1#1, 0x19#7, d ++ a ++ i)
  | .clz d a => some (1#1, 0x1A#7, d ++ a ++ 0#10)
  | .ctz d a => some (1#1, 0x1B#7, d ++ a ++ 0#10)
  | .popc d a => some (1#1, 0x1C#7, d ++ a ++ 0#10)
  | .min d a b => some (1#1, 0x1D#7, d ++ a ++ b ++ 0#5)
  | .max d a b => some (1#1, 0x1E#7, d ++ a ++ b ++ 0#5)
  | .minu d a b => some (1#1, 0x1F#7, d ++ a ++ b ++ 0#5)
  | .maxu d a b => some (1#1, 0x20#7, d ++ a ++ b ++ 0#5)
  | .sel d a b p => some (1#1, 0x21#7, d ++ a ++ b ++ 0#2 ++ p)
  | .cmpEq d a b => some (1#1, 0x22#7, d ++ a ++ b ++ 0#5)
  | .cmpNe d a b => some (1#1, 0x23#7, d ++ a ++ b ++ 0#5)
  | .cmpLt d a b => some (1#1, 0x24#7, d ++ a ++ b ++ 0#5)
  | .cmpLtu d a b => some (1#1, 0x25#7, d ++ a ++ b ++ 0#5)
  | .cmpLe d a b => some (1#1, 0x26#7, d ++ a ++ b ++ 0#5)
  | .cmpLeu d a b => some (1#1, 0x27#7, d ++ a ++ b ++ 0#5)
  | .cmpp q a b m c => some (1#1, 0x28#7, 0#2 ++ q ++ a ++ b ++ m ++ c)
  | .movi d i => some (1#1, 0x29#7, d ++ i)
  | .movs d i => some (1#1, 0x2A#7, d ++ i)
  | .addsh d a b m => some (1#1, 0x2B#7, d ++ a ++ b ++ m)
  | .bfx d a b x => some (1#1, 0x2C#7, d ++ a ++ b ++ 0#4 ++ x)
  | .bfi d a b => some (1#1, 0x2D#7, d ++ a ++ b ++ 0#5)
  | .fadd d a b p r => some (1#1, 0x30#7, d ++ a ++ b ++ p.bits ++ r)
  | .fsub d a b p r => some (1#1, 0x31#7, d ++ a ++ b ++ p.bits ++ r)
  | .fmul d a b p r => some (1#1, 0x32#7, d ++ a ++ b ++ p.bits ++ r)
  | .fdiv d a b p r => some (1#1, 0x33#7, d ++ a ++ b ++ p.bits ++ r)
  | .fsqrt d a p r => some (1#1, 0x34#7, d ++ a ++ 0#5 ++ p.bits ++ r)
  | .fmin d a b p => some (1#1, 0x35#7, d ++ a ++ b ++ p.bits ++ 0#3)
  | .fmax d a b p => some (1#1, 0x36#7, d ++ a ++ b ++ p.bits ++ 0#3)
  | .fma d a b p r => some (1#1, 0x37#7, d ++ a ++ b ++ p.bits ++ r)
  | .fms d a b p r => some (1#1, 0x38#7, d ++ a ++ b ++ p.bits ++ r)
  | .fnma d a b p r => some (1#1, 0x39#7, d ++ a ++ b ++ p.bits ++ r)
  | .fnms d a b p r => some (1#1, 0x3A#7, d ++ a ++ b ++ p.bits ++ r)
  | .fcmp d a b p => some (1#1, 0x3B#7, d ++ a ++ b ++ p.bits ++ 0#3)
  | .fclass d a p => some (1#1, 0x3C#7, d ++ a ++ 0#5 ++ p.bits ++ 0#3)
  | .fsgnj d a b p => some (1#1, 0x3D#7, d ++ a ++ b ++ p.bits ++ 0#3)
  | .fsgnn d a b p => some (1#1, 0x3E#7, d ++ a ++ b ++ p.bits ++ 0#3)
  | .fsgnx d a b p => some (1#1, 0x3F#7, d ++ a ++ b ++ p.bits ++ 0#3)
  | .fcvtIf d a p r => some (1#1, 0x40#7, d ++ a ++ 0#5 ++ p.bits ++ r)
  | .fcvtFi d a p r => some (1#1, 0x41#7, d ++ a ++ 0#5 ++ p.bits ++ r)
  | .fcvtFf d a v e p r => some (1#1, 0x42#7, d ++ a ++ 0#2 ++ v ++ e.bits ++ p.bits ++ r)
  | .fmvx d a b p => some (1#1, 0x43#7, d ++ a ++ b ++ p.bits ++ 0#3)
  | .vadd d a b p t => some (1#1, 0x50#7, d ++ a ++ b ++ p ++ t)
  | .vsub d a b p t => some (1#1, 0x51#7, d ++ a ++ b ++ p ++ t)
  | .vmul d a b p t => some (1#1, 0x52#7, d ++ a ++ b ++ p ++ t)
  | .vfma d a b p t => some (1#1, 0x53#7, d ++ a ++ b ++ p ++ t)
  | .vfms d a b p t => some (1#1, 0x54#7, d ++ a ++ b ++ p ++ t)
  | .vfnma d a b p t => some (1#1, 0x55#7, d ++ a ++ b ++ p ++ t)
  | .vrcp d a p t => some (1#1, 0x56#7, d ++ a ++ 0#5 ++ p ++ t)
  | .vrsqrt d a p t => some (1#1, 0x57#7, d ++ a ++ 0#5 ++ p ++ t)
  | .vexp2 d a p t => some (1#1, 0x58#7, d ++ a ++ 0#5 ++ p ++ t)
  | .vmin d a b p t => some (1#1, 0x59#7, d ++ a ++ b ++ p ++ t)
  | .vmax d a b p t => some (1#1, 0x5A#7, d ++ a ++ b ++ p ++ t)
  | .vabs d a p t => some (1#1, 0x5B#7, d ++ a ++ 0#5 ++ p ++ t)
  | .vneg d a p t => some (1#1, 0x5C#7, d ++ a ++ 0#5 ++ p ++ t)
  | .vand d a b p t => some (1#1, 0x5D#7, d ++ a ++ b ++ p ++ t)
  | .vor d a b p t => some (1#1, 0x5E#7, d ++ a ++ b ++ p ++ t)
  | .vxor d a b p t => some (1#1, 0x5F#7, d ++ a ++ b ++ p ++ t)
  | .vandn d a b p t => some (1#1, 0x60#7, d ++ a ++ b ++ p ++ t)
  | .vshl d a b p t => some (1#1, 0x61#7, d ++ a ++ b ++ p ++ t)
  | .vshr d a b p t => some (1#1, 0x62#7, d ++ a ++ b ++ p ++ t)
  | .vsra d a b p t => some (1#1, 0x63#7, d ++ a ++ b ++ p ++ t)
  | .vshli d a k p t => some (1#1, 0x64#7, d ++ a ++ k ++ p ++ t)
  | .vshri d a k p t => some (1#1, 0x65#7, d ++ a ++ k ++ p ++ t)
  | .vsrai d a k p t => some (1#1, 0x66#7, d ++ a ++ k ++ p ++ t)
  | .vceq q a b p t => some (1#1, 0x67#7, 0#2 ++ q ++ a ++ b ++ p ++ t)
  | .vcne q a b p t => some (1#1, 0x68#7, 0#2 ++ q ++ a ++ b ++ p ++ t)
  | .vclt q a b p t => some (1#1, 0x69#7, 0#2 ++ q ++ a ++ b ++ p ++ t)
  | .vcle q a b p t => some (1#1, 0x6A#7, 0#2 ++ q ++ a ++ b ++ p ++ t)
  | .vsel d a b p t => some (1#1, 0x6B#7, d ++ a ++ b ++ p ++ t)
  | .vperm d a b p t => some (1#1, 0x6C#7, d ++ a ++ b ++ p ++ t)
  | .vbcast d a p t => some (1#1, 0x6D#7, d ++ a ++ 0#5 ++ p ++ t)
  | .vext d a b t => some (1#1, 0x6E#7, d ++ a ++ b ++ 0#3 ++ t)
  | .vins d a b t => some (1#1, 0x6F#7, d ++ a ++ b ++ 0#3 ++ t)
  | .vredAdd d a p t => some (1#1, 0x70#7, d ++ a ++ 0#5 ++ p ++ t)
  | .vredMax d a p t => some (1#1, 0x71#7, d ++ a ++ 0#5 ++ p ++ t)
  | .vredMin d a p t => some (1#1, 0x72#7, d ++ a ++ 0#5 ++ p ++ t)
  | .vredOr d a p t => some (1#1, 0x73#7, d ++ a ++ 0#5 ++ p ++ t)
  | .vcvt d a h e p t => some (1#1, 0x74#7, d ++ a ++ h ++ 0#2 ++ e ++ p ++ t)
  | .vcvtb d a r t => some (1#1, 0x75#7, d ++ a ++ 0#4 ++ r ++ 0#3 ++ t)
  | .vpand d a b => some (1#1, 0x76#7, 0#2 ++ d ++ 0#2 ++ a ++ 0#2 ++ b ++ 0#5)
  | .vpor d a b => some (1#1, 0x77#7, 0#2 ++ d ++ 0#2 ++ a ++ 0#2 ++ b ++ 0#5)
  | .vpnot d a => some (1#1, 0x78#7, 0#2 ++ d ++ 0#2 ++ a ++ 0#10)
  | .vpopc d a p t => some (1#1, 0x79#7, d ++ 0#2 ++ a ++ 0#5 ++ p ++ t)
  | .viota d a p t => some (1#1, 0x7A#7, d ++ 0#2 ++ a ++ 0#5 ++ p ++ t)
  | .vmovp d a r t => some (1#1, 0x7B#7, d ++ a ++ 0#4 ++ r ++ 0#3 ++ t)
  | .vsat d a b p t => some (1#1, 0x7C#7, d ++ a ++ b ++ p ++ t)
  | .vdot4 d a b p t => some (1#1, 0x7D#7, d ++ a ++ b ++ p ++ t)
  | .brEq a b i => some (0#1, 0x01#7, a ++ b ++ i)
  | .brNe a b i => some (0#1, 0x02#7, a ++ b ++ i)
  | .brLt a b i => some (0#1, 0x03#7, a ++ b ++ i)
  | .brLtu a b i => some (0#1, 0x04#7, a ++ b ++ i)
  | .brGe a b i => some (0#1, 0x05#7, a ++ b ++ i)
  | .brGeu a b i => some (0#1, 0x06#7, a ++ b ++ i)
  | .brp n m i => some (0#1, 0x07#7, 0#2 ++ n ++ 0#3 ++ m ++ i)
  | .jmp i => some (0#1, 0x08#7, i)
  | .jal i => some (0#1, 0x09#7, i)
  | .jr d a i => some (0#1, 0x0A#7, d ++ a ++ i)
  | .trap i => some (0#1, 0x0B#7, i)
  | .tret => some (0#1, 0x0C#7, 0#20)
  | .csrr d c => some (0#1, 0x0D#7, d ++ 0#5 ++ c)
  | .csrw a c => some (0#1, 0x0E#7, 0#5 ++ a ++ c)
  | .csrx d a c => some (0#1, 0x0F#7, d ++ a ++ c)
  | .ldB d b h o c n => some (0#1, 0x10#7, d ++ b ++ h ++ o.bits ++ c.bits ++ n.bits)
  | .ldBz d b h o c n => some (0#1, 0x11#7, d ++ b ++ h ++ o.bits ++ c.bits ++ n.bits)
  | .ldH d b h o c n => some (0#1, 0x12#7, d ++ b ++ h ++ o.bits ++ c.bits ++ n.bits)
  | .ldHz d b h o c n => some (0#1, 0x13#7, d ++ b ++ h ++ o.bits ++ c.bits ++ n.bits)
  | .ldW d b h o c n => some (0#1, 0x14#7, d ++ b ++ h ++ o.bits ++ c.bits ++ n.bits)
  | .ldWz d b h o c n => some (0#1, 0x15#7, d ++ b ++ h ++ o.bits ++ c.bits ++ n.bits)
  | .ldD d b h o c n => some (0#1, 0x16#7, d ++ b ++ h ++ o.bits ++ c.bits ++ n.bits)
  | .ldoB d b i => some (0#1, 0x17#7, d ++ b ++ i)
  | .ldoBz d b i => some (0#1, 0x18#7, d ++ b ++ i)
  | .ldoH d b i => some (0#1, 0x19#7, d ++ b ++ i)
  | .ldoHz d b i => some (0#1, 0x1A#7, d ++ b ++ i)
  | .ldoW d b i => some (0#1, 0x1B#7, d ++ b ++ i)
  | .ldoWz d b i => some (0#1, 0x1C#7, d ++ b ++ i)
  | .ldoD d b i => some (0#1, 0x1D#7, d ++ b ++ i)
  | .stB d b h o c n => some (0#1, 0x1E#7, d ++ b ++ h ++ o.bits ++ c.bits ++ n.bits)
  | .stH d b h o c n => some (0#1, 0x1F#7, d ++ b ++ h ++ o.bits ++ c.bits ++ n.bits)
  | .stW d b h o c n => some (0#1, 0x20#7, d ++ b ++ h ++ o.bits ++ c.bits ++ n.bits)
  | .stD d b h o c n => some (0#1, 0x21#7, d ++ b ++ h ++ o.bits ++ c.bits ++ n.bits)
  | .stoB d b i => some (0#1, 0x22#7, d ++ b ++ i)
  | .stoH d b i => some (0#1, 0x23#7, d ++ b ++ i)
  | .stoW d b i => some (0#1, 0x24#7, d ++ b ++ i)
  | .stoD d b i => some (0#1, 0x25#7, d ++ b ++ i)
  | .amoAdd d b h o c n => some (0#1, 0x26#7, d ++ b ++ h ++ o.bits ++ c.bits ++ n.bits)
  | .amoAnd d b h o c n => some (0#1, 0x27#7, d ++ b ++ h ++ o.bits ++ c.bits ++ n.bits)
  | .amoOr d b h o c n => some (0#1, 0x28#7, d ++ b ++ h ++ o.bits ++ c.bits ++ n.bits)
  | .amoXor d b h o c n => some (0#1, 0x29#7, d ++ b ++ h ++ o.bits ++ c.bits ++ n.bits)
  | .amoMax d b h o c n => some (0#1, 0x2A#7, d ++ b ++ h ++ o.bits ++ c.bits ++ n.bits)
  | .amoMin d b h o c n => some (0#1, 0x2B#7, d ++ b ++ h ++ o.bits ++ c.bits ++ n.bits)
  | .amoMaxu d b h o c n => some (0#1, 0x2C#7, d ++ b ++ h ++ o.bits ++ c.bits ++ n.bits)
  | .amoMinu d b h o c n => some (0#1, 0x2D#7, d ++ b ++ h ++ o.bits ++ c.bits ++ n.bits)
  | .amoSwap d b h o c n => some (0#1, 0x2E#7, d ++ b ++ h ++ o.bits ++ c.bits ++ n.bits)
  | .cas d b h o c n => some (0#1, 0x2F#7, d ++ b ++ h ++ o.bits ++ c.bits ++ n.bits)
  | .hnew h c => some (0#1, 0x30#7, 0#1 ++ h ++ 0#13 ++ c.bits)
  | .hfork h g c => some (0#1, 0x31#7, 0#1 ++ h ++ 0#1 ++ g ++ 0#8 ++ c.bits)
  | .hjoin h g c => some (0#1, 0x32#7, 0#1 ++ h ++ 0#1 ++ g ++ 0#8 ++ c.bits)
  | .hfree h => some (0#1, 0x33#7, 0#1 ++ h ++ 0#15)
  | .hwait h c => some (0#1, 0x34#7, 0#1 ++ h ++ 0#13 ++ c.bits)
  | .fence c => some (0#1, 0x35#7, 0#18 ++ c.bits)
  | .pref b h o c n => some (0#1, 0x36#7, 0#5 ++ b ++ h ++ o.bits ++ c.bits ++ n.bits)
  | .waita d b h o c n => some (0#1, 0x37#7, d ++ b ++ h ++ o.bits ++ c.bits ++ n.bits)
  | .genset d a g => some (0#1, 0x38#7, d ++ a ++ 0#7 ++ g)
  | .migr d a m => some (0#1, 0x39#7, d ++ a ++ 0#9 ++ m)
  | .send d a p h f => some (0#1, 0x40#7, d ++ a ++ p ++ h ++ f)
  | .ibpop d h => some (0#1, 0x41#7, d ++ 0#11 ++ h)
  | .ibpeek d => some (0#1, 0x42#7, d ++ 0#15)
  | .endH => some (0#1, 0x43#7, 0#20)
  | .wdraw d a => some (0#1, 0x44#7, d ++ a ++ 0#10)
  | .wret d a => some (0#1, 0x45#7, d ++ a ++ 0#10)
  | .waudit d a => some (0#1, 0x46#7, d ++ a ++ 0#10)
  | .qwatch d a m t => some (0#1, 0x47#7, d ++ a ++ 0#1 ++ m ++ t)
  | .qnew d a k => some (0#1, 0x48#7, d ++ a ++ 0#5 ++ k)
  | .qenq d a p h f => some (0#1, 0x49#7, d ++ a ++ p ++ h ++ f)
  | .qdeq d a h => some (0#1, 0x4A#7, d ++ a ++ 0#6 ++ h)
  | .qtry d a h => some (0#1, 0x4B#7, d ++ a ++ 0#6 ++ h)
  | .qfree d a => some (0#1, 0x4C#7, d ++ a ++ 0#10)
  | .rackb d a v => some (0#1, 0x4D#7, d ++ a ++ 0#8 ++ v)
  | .bar d a v => some (0#1, 0x4E#7, d ++ a ++ 0#8 ++ v)
  | .mcst d a p h f => some (0#1, 0x4F#7, d ++ a ++ p ++ h ++ f)
  | .spawn d a p h f => some (0#1, 0x50#7, d ++ a ++ p ++ h ++ f)
  | .fget d a x => some (0#1, 0x51#7, d ++ a ++ 0#9 ++ x)
  | .fset d a b => some (0#1, 0x52#7, d ++ a ++ b ++ 0#5)
  | .fref d a m => some (0#1, 0x53#7, d ++ a ++ 0#8 ++ m)
  | .fdrop a => some (0#1, 0x54#7, 0#5 ++ a ++ 0#10)
  | .fpoll d a => some (0#1, 0x55#7, d ++ a ++ 0#10)
  | .sync m x => some (0#1, 0x56#7, m ++ x)
  | .suspend q m x => some (0#1, 0x57#7, q ++ m ++ x)
  | .yield m x => some (0#1, 0x58#7, m ++ x)
  | .cordon d n => some (0#1, 0x59#7, d ++ 0#10 ++ n)
  | .uncordon => some (0#1, 0x5A#7, 0#20)
  | .qend => some (0#1, 0x5B#7, 0#20)
  | .vld d b h o c n => some (0#1, 0x60#7, d ++ b ++ h ++ o.bits ++ c.bits ++ n.bits)
  | .vst d b h o c n => some (0#1, 0x61#7, d ++ b ++ h ++ o.bits ++ c.bits ++ n.bits)
  | .vgath d a b p t => some (0#1, 0x62#7, d ++ a ++ b ++ p ++ t)
  | .vscat d a b p t => some (0#1, 0x63#7, d ++ a ++ b ++ p ++ t)
  | .vamo d o b p t => some (0#1, 0x64#7, d ++ 0#3 ++ o ++ b ++ p ++ t)
  | .sbind n a r => some (0#1, 0x65#7, 0#3 ++ n ++ a ++ 0#9 ++ r)
  | .sfree d n => some (0#1, 0x66#7, d ++ 0#3 ++ n ++ 0#10)
  | .vsave d a => some (0#1, 0x67#7, d ++ a ++ 0#10)
  | .vrest d a => some (0#1, 0x68#7, d ++ a ++ 0#10)
  | .copy d a b h => some (0#1, 0x6A#7, d ++ a ++ b ++ 0#1 ++ h)
  | .copys a b h => some (0#1, 0x6B#7, 0#5 ++ a ++ b ++ 0#1 ++ h)
  | .copyx a b o h => some (0#1, 0x6C#7, 0#5 ++ a ++ b ++ o ++ h)
  | .ttpost d a b h => some (0#1, 0x6D#7, d ++ a ++ b ++ 0#1 ++ h)
  | .caskopen m => some (0#1, 0x6E#7, 0#18 ++ m)
  | .caskseal m => some (0#1, 0x6F#7, 0#18 ++ m)
  | .idle => some (0#1, 0x70#7, 0#20)
  | .plbw d a b => some (0#1, 0x71#7, d ++ a ++ b ++ 0#5)
  | .plbinv d a m => some (0#1, 0x72#7, d ++ a ++ 0#8 ++ m)
  | .preempt d a m => some (0#1, 0x73#7, d ++ a ++ 0#9 ++ m)
  | .ctxsave d a => some (0#1, 0x74#7, d ++ a ++ 0#10)
  | .ctxload d a => some (0#1, 0x75#7, d ++ a ++ 0#10)
  | .wvint d => some (0#1, 0x76#7, d ++ 0#15)
  | .errinj d a k => some (0#1, 0x77#7, d ++ a ++ 0#7 ++ k)
  | .kload d a e => some (0#1, 0x78#7, d ++ a ++ 0#4 ++ e)
  | .kzero d e => some (0#1, 0x79#7, d ++ 0#9 ++ e)
  | .scrub d a b m => some (0#1, 0x7A#7, d ++ a ++ b ++ 0#4 ++ m)
  | .assign d a b => some (0#1, 0x7B#7, d ++ a ++ b ++ 0#5)
  | .release d => some (0#1, 0x7C#7, d ++ 0#15)
  | .linkkey d a k => some (0#1, 0x7D#7, d ++ a ++ 0#5 ++ k)
  | .preemptTrap => none
  | .regionEventTrap => none
  | .yieldRequestArrival => none
  | .divideResult => none
  | .memoryReply => none
  | .storeAcknowledge => none
  | .remoteAccess => none
  | .migrationArrival => none
  | .forwardEntryExpire => none
  | .atomicForward => none
  | .atomicRetransmit => none
  | .parkWake => none
  | .parkTimeout => none
  | .waitaWake => none
  | .caskRefreshStart => none
  | .caskRefreshEnd => none
  | .handleTicket => none
  | .messageAccept => none
  | .sendCreditReturn => none
  | .inboxEntryStart => none
  | .spillRetry => none
  | .startAccept => none
  | .sliceQueueAccept => none
  | .mcstdone => none
  | .drawRequest => none
  | .drawGrant => none
  | .weightReturn => none
  | .quiescenceDeadline => none
  | .popRequest => none
  | .popServe => none
  | .popWithdraw => none
  | .governorEvaluate => none
  | .trigger => none
  | .quantumEnd => none
  | .reclaimMark => none
  | .frameReturn => none
  | .streamFetch => none
  | .copyValidate => none
  | .copyChunk => none
  | .copydone => none
  | .tileTaskIssue => none
  | .tiledone => none
  | .tileTaskAbort => none
  | .heldMessageRelease => none
  | .gatewayTimeout => none
  | .keyMarkerAccept => none
  | .keydue => none
  | .keyExhausted => none
  | .flitAuthFail => none
  | .reductionCombine => none
  | .reductionAbort => none
  | .redcfgWrite => none
  | .deviceRegisterWrite => none
  | .lcstateWrite => none
  | .isolateWrite => none
  | .supergroupRepair => none
  | .hostRead => none
  | .hostWrite => none
  | .scrubLine => none
  | .coldReset => none
  | .warmReset => none
  | .supergroupReset => none
  | .clockStepDown => none
  | .illegalInstruction => none
  | .fetchFault => none
  | .softError => none
  | .fabricAccess => none
  | .memberRegistration => none
  | .coolantBelowLimit => none

/-- A word from its fields, highest first (03 R48). -/
def packWord (l k : BitVec 1) (s : BitVec 3) (op : BitVec 7) (x : BitVec 20) : W32 := l ++ k ++ s ++ op ++ x

/-- The word of a decoded instruction. -/
def encode (d : Decoded) : Option W32 :=
  match encodeKox d.i with
  | some (k, op, x) => some (packWord d.l k d.s op x)
  | none => none

/-- The instruction that the decoder reads from one word numbered as the opcode table numbers it. -/
def decodeTableWord (nbits w : Nat) : Option Instr :=
  if nbits = 32 then
    match decodeWord (BitVec.ofNat 32 w) with
    | .ok d => some d.i
    | .error _ => none
  else none

/-- The two words of a bundle: word 0 stands at the lower address (03 R49), each little-endian (00 R5). -/
def bundleWords (b : W64) : W32 × W32 := (b.extractLsb' 0 32, b.extractLsb' 32 32)

end Sys2Proof
end

