-- ==== Sys2Proof/Config.lean ====
section
/-!
DEFINITION. The values that the spec leaves open: constants without a body, so that no proof can lean on one. Each is
applied to the operands it depends on; the log entries name them.
-/
namespace Sys2Proof.Config

/-- The part of a `vsave` block that is private to the device: one doubleword of it for a block number (13 R330, log
entry 19). -/
opaque checkWord : BitVec 32 → BitVec 64 → BitVec 64
/-- The ECC syndrome of an uncorrectable word at an address (07 R185, log entry 15). -/
opaque syndrome : Nat → BitVec 8
/-- The supergroup position of the router that the port of a memory of Table 7-6 is attached at, by LOC and address (07 R183,
log entry 34). -/
opaque portRouter : Nat → Nat → Nat
/-- The scope of a handle whose sequencer lies on another device (09 R246, log entry 51). -/
opaque foreignScope : BitVec 32 → BitVec 2
/-- The Lernu port of the fabric's fixed route to a device, and whether another port routes to it: by port and device (17 R369,
R373, log entry 55). -/
opaque route : Nat → Nat
opaque routes : Nat → Nat → Bool
/-- Which of two representable neighbours, lower or upper, a function of 13 R308 or 07 R173 rounds to where the model's
bounded computation does not decide it (log entry 16): the function's number and its operand. -/
opaque undecided : Nat → BitVec 64 → Bool

end Sys2Proof.Config
end

