-- ==== Sys2Proof/Machine/Cipher.lean ====
section
/-!
DEFINITION. The cipher of protected lines (17 R374): AES-256 as FIPS 197 defines it, and its XTS mode as IEEE 1619 does, for one line of
64 bytes. Bytes and blocks are natural numbers, byte 0 of a block lowest.
-/
namespace Sys2Proof.Machine

/-- The 256 bytes of the S-box of AES, byte `x` at bits 8x + 7 : 8x. -/
def sboxTable : Nat :=
  0x16BB54B00F2D99416842E6BF0D89A18CDF2855CEE9871E9B948ED9691198F8E1 * 2 ^ 1792
    + 0x9E1DC186B95735610EF6034866B53E708A8BBD4B1F74DDE8C6B4A61C2E2578BA * 2 ^ 1536
    + 0x08AE7A65EAF4566CA94ED58D6D37C8E779E4959162ACD3C25C2406490A3A32E0 * 2 ^ 1280
    + 0xDB0B5EDE14B8EE4688902A22DC4F816073195D643D7EA7C41744975FEC130CCD * 2 ^ 1024
    + 0xD2F3FF1021DAB6BCF5389D928F40A351A89F3C507F02F94585334D43FBAAEFD0 * 2 ^ 768
    + 0xCF584C4A39BECB6A5BB1FC20ED00D153842FE329B3D63B52A05A6E1B1A2C8309 * 2 ^ 512
    + 0x75B227EBE28012079A059618C323C7041531D871F1E5A534CCF73F362693FDB7 * 2 ^ 256
    + 0xC072A49CAFA2D4ADF04759FA7DC982CA76ABD7FE2B670130C56F6BF27B777C63 * 2 ^ 0

/-- The 256 bytes of its inverse. -/
def invSboxTable : Nat :=
  0x7D0C2155631469E126D677BA7E042B17619953833CBBEBC8B0F52AAE4D3BE0A0 * 2 ^ 1792
    + 0xEF9CC9939F7AE52D0D4AB519A97F51605FEC8027591012B131C7078833A8DD1F * 2 ^ 1536
    + 0xF45ACD78FEC0DB9A2079D2C64B3E56FC1BBE18AA0E62B76F89C5291D711AF147 * 2 ^ 1280
    + 0x6EDF751CE837F9E28535ADE72274AC9673E6B4F0CECFF297EADC674F4111913A * 2 ^ 1024
    + 0x6B8A130103BDAFC1020F3FCA8F1E2CD00645B3B80558E4F70AD3BC8C00ABD890 * 2 ^ 768
    + 0x849D8DA75746155EDAB9EDFD5048706C92B6655DCC5CA4D41698688664F6F872 * 2 ^ 512
    + 0x25D18B6D49A25B76B224D92866A12E084EC3FA420B954CEE3D23C2A632947B54 * 2 ^ 256
    + 0xCBE9DEC444438E3487FF2F9B8239E37CFBD7F3819EA340BF38A53630D56A0952 * 2 ^ 0

def sbox (x : Nat) : Nat := sboxTable / 2 ^ (8 * x) % 256
def invSbox (x : Nat) : Nat := invSboxTable / 2 ^ (8 * x) % 256

/-- Twice a byte in the field of AES. -/
def xtime (x : Nat) : Nat := if x < 128 then 2 * x else (2 * x) ^^^ 0x11B
/-- The bytes of a block or a key. -/
def natBytes (n x : Nat) : List Nat := (List.range n).map (fun i => x / 2 ^ (8 * i) % 256)
def bytesNat (bs : List Nat) : Nat := bs.foldr (fun b n => n * 256 + b) 0
/-- The bytes of two lists, xored. -/
def xorBytes (a b : List Nat) : List Nat := a.zipWith (· ^^^ ·) b

/-- A column of MixColumns and of its inverse. -/
def mixColumn (c : List Nat) : List Nat :=
  match c with
  | [a, b, x, d] =>
    let t := a ^^^ b ^^^ x ^^^ d
    [a ^^^ t ^^^ xtime (a ^^^ b), b ^^^ t ^^^ xtime (b ^^^ x), x ^^^ t ^^^ xtime (x ^^^ d), d ^^^ t ^^^ xtime (d ^^^ a)]
  | _ => c
def invMixColumn (c : List Nat) : List Nat :=
  match c with
  | [a, b, x, d] =>
    let u := xtime (xtime (a ^^^ x))
    let v := xtime (xtime (b ^^^ d))
    mixColumn [a ^^^ u, b ^^^ v, x ^^^ u, d ^^^ v]
  | _ => c
/-- The four columns of a block, each changed. -/
def columns (f : List Nat → List Nat) (b : List Nat) : List Nat :=
  f (b.take 4) ++ f ((b.drop 4).take 4) ++ f ((b.drop 8).take 4) ++ f (b.drop 12)
/-- ShiftRows moves row r of a block by r columns, and its inverse back. -/
def shiftRows (b : List Nat) : List Nat := (List.range 16).map (fun i => b.getD ((i + 4 * (i % 4)) % 16) 0)
def invShiftRows (b : List Nat) : List Nat := (List.range 16).map (fun i => b.getD ((i + 12 * (i % 4)) % 16) 0)

/-- The next word of the key schedule of AES-256, after `ws`, of which there are `i`. -/
def nextKeyWord (ws : List (List Nat)) (i : Nat) : List Nat :=
  let t := ws.getD (i - 1) []
  let t :=
    if i % 8 = 0 then xorBytes ((t.drop 1 ++ t.take 1).map sbox) [2 ^ (i / 8 - 1), 0, 0, 0]
    else if i % 8 = 4 then t.map sbox else t
  xorBytes (ws.getD (i - 8) []) t
/-- The 15 round keys of a 32-byte key. -/
def roundKeys (key : Nat) : List (List Nat) :=
  let first := (List.range 8).map (fun i => natBytes 4 (key / 2 ^ (32 * i)))
  let ws := (List.range 52).foldl (fun ws j => ws ++ [nextKeyWord ws (j + 8)]) first
  (List.range 15).map (fun r => ((ws.drop (4 * r)).take 4).flatten)

/-- AES-256 of a block under round keys, and its inverse. -/
def aesEnc (rks : List (List Nat)) (x : Nat) : Nat :=
  let rk (r : Nat) := rks.getD r []
  let b := (List.range 13).foldl (fun b r => xorBytes (columns mixColumn (shiftRows (b.map sbox))) (rk (r + 1)))
    (xorBytes (natBytes 16 x) (rk 0))
  bytesNat (xorBytes (shiftRows (b.map sbox)) (rk 14))
def aesDec (rks : List (List Nat)) (x : Nat) : Nat :=
  let rk (r : Nat) := rks.getD r []
  let b := (List.range 13).foldl (fun b r =>
      columns invMixColumn (xorBytes ((invShiftRows b).map invSbox) (rk (13 - r)))) (xorBytes (natBytes 16 x) (rk 14))
  bytesNat (xorBytes ((invShiftRows b).map invSbox) (rk 0))

/-- The tweak of the next block: twice it in the field of XTS. -/
def nextTweak (t : Nat) : Nat := if t < 2 ^ 127 then 2 * t else (2 * t - 2 ^ 128) ^^^ 0x87
/-- The tweaks of the four blocks of a line. -/
def tweaks (key : W512) (line : Nat) : List Nat :=
  let t0 := aesEnc (roundKeys (key.toNat / 2 ^ 256)) line
  [t0, nextTweak t0, nextTweak (nextTweak t0), nextTweak (nextTweak (nextTweak t0))]
/-- A line block by block, each with its tweak before and after. -/
def xtsLine (f : Nat → Nat) (ts : List Nat) (x : W512) : W512 :=
  BitVec.ofNat 512 ((ts.zipIdx).foldl (fun n (t, i) => n + (f (x.toNat / 2 ^ (128 * i) % 2 ^ 128 ^^^ t) ^^^ t) * 2 ^ (128 * i)) 0)
/-- AES-XTS-256 of a line of 64 bytes under the two keys of a slot, with the physical line address as tweak, and its inverse (17 R374,
R384; log entry 14). -/
def xtsEnc (key : W512) (line : Nat) (x : W512) : W512 :=
  xtsLine (aesEnc (roundKeys (key.toNat % 2 ^ 256))) (tweaks key line) x
def xtsDec (key : W512) (line : Nat) (x : W512) : W512 :=
  xtsLine (aesDec (roundKeys (key.toNat % 2 ^ 256))) (tweaks key line) x

end Sys2Proof.Machine
end

