-- ==== Sys2Proof/Machine/Maps.lean ====
section
/-!
DEFINITION. Finite maps with rising keys, and byte memories in one canonical form.
-/
namespace Sys2Proof.Machine

/-- The value of a key, if it has one. -/
def FMap.get? {V : Type} : FMap V → Nat → Option V
  | [], _ => none
  | (k, v) :: m, n => if k = n then some v else FMap.get? m n

/-- The value of a key, or a default. -/
def FMap.getD {V : Type} (m : FMap V) (n : Nat) (d : V) : V := (FMap.get? m n).getD d

/-- The map without a key. -/
def FMap.erase {V : Type} : FMap V → Nat → FMap V
  | [], _ => []
  | (k, v) :: m, n => if k = n then FMap.erase m n else (k, v) :: FMap.erase m n

/-- Places an entry before the first larger key. -/
def FMap.insert {V : Type} : FMap V → Nat → V → FMap V
  | [], n, x => [(n, x)]
  | (k, v) :: m, n, x => if n < k then (n, x) :: (k, v) :: m else (k, v) :: FMap.insert m n x

/-- The map with a key set to a value. -/
def FMap.put {V : Type} (m : FMap V) (n : Nat) (x : V) : FMap V := FMap.insert (FMap.erase m n) n x

/-- The keys rise strictly. -/
def FMap.sorted {V : Type} : FMap V → Bool
  | [] => true
  | [_] => true
  | (a, _) :: (b, v) :: m => decide (a < b) && FMap.sorted ((b, v) :: m)

/-- What an unlisted byte of memory reads as: every memory is wiped at a cold reset (17 R377, log entry 3). -/
def Memory.dflt : Byte := 0

/-- The byte at a key. -/
def Memory.read (m : List Host.Cell) (k : Nat) : Byte := FMap.getD m k Memory.dflt

/-- The memory with a byte written. -/
def Memory.write (m : List Host.Cell) (k : Nat) (b : Byte) : List Host.Cell :=
  if b = Memory.dflt then FMap.erase m k else FMap.put m k b

/-- The canonical form: rising keys, and no entry that equals what an unlisted key reads as. -/
def Memory.wf (m : List Host.Cell) : Bool := FMap.sorted m && m.all (fun e => decide (e.2 ≠ Memory.dflt))

/-- The bytes at some keys. -/
def Memory.readAll (m : List Host.Cell) (ks : List Nat) : List Byte := ks.map (Memory.read m)

/-- The memory with bytes written to keys, in order. -/
def Memory.writeAll (m : List Host.Cell) : List Nat → List Byte → List Host.Cell
  | k :: ks, b :: bs => Memory.writeAll (Memory.write m k b) ks bs
  | _, _ => m

/-- The memory without the keys that satisfy a test. -/
def Memory.wipe (m : List Host.Cell) (p : Nat → Bool) : List Host.Cell := m.filter (fun e => !p e.1)

/-- Bytes as a number, the first lowest (00 R5). -/
def ofBytes : List Byte → Nat
  | [] => 0
  | b :: bs => b.toNat + 256 * ofBytes bs

/-- The lowest `n` bytes of a number, lowest first (00 R5). -/
def toBytes : Nat → Nat → List Byte
  | 0, _ => []
  | n + 1, x => BitVec.ofNat 8 x :: toBytes n (x / 256)

/-- The first entry of a list that satisfies a test, with its place. -/
def findAt {A : Type} (p : A → Bool) : List A → Nat → Option (Nat × A)
  | [], _ => none
  | x :: xs, n => if p x then some (n, x) else findAt p xs (n + 1)

/-- The list with its entry at a place replaced. -/
def setAt {A : Type} : List A → Nat → A → List A
  | [], _, _ => []
  | _ :: xs, 0, y => y :: xs
  | x :: xs, n + 1, y => x :: setAt xs n y

/-- The list without its entry at a place. -/
def dropAt {A : Type} : List A → Nat → List A
  | [], _ => []
  | _ :: xs, 0 => xs
  | x :: xs, n + 1 => x :: dropAt xs n

end Sys2Proof.Machine
end

