-- ==== Sys2Proof/Machine/State.lean ====
section
/-!
DEFINITION. The state of the device: every register, queue, cache line, engine and message that the spec names, as
plain data, and the state after reset. Fields marked MODEL are the model's own and not the spec's.
-/
namespace Sys2Proof.Machine

/-! ## Registers and results in flight -/

/-- The register files that a result can be pending for (03 R59, Table 3-6). -/
inductive RFile where
  | s | v | p
  deriving DecidableEq, Repr

/-- A result that an issued word has produced and that its register does not show yet (03 R59-R61). -/
structure Pending where
  file : RFile
  reg : Nat
  /-- the value, once it is known -/
  val : W512
  /-- the bits that it writes, where it keeps the others (13 R302); none for all -/
  mask : Option W512
  /-- nominal slot time of the word that writes it -/
  issued : Nat
  /-- the nominal slot time from which it is visible; none for an interlocked result -/
  visible : Option Nat
  /-- MODEL: names the access or command that an interlocked result comes from -/
  tag : Nat
  deriving DecidableEq, Repr

/-- Flags of a float word that are not yet in FLAGS (05 R110). -/
structure PendFlags where
  bits : BitVec 5
  issued : Nat
  visible : Nat
  deriving DecidableEq, Repr

/-- The result that the divider is working on (04 R84, 05 R130). -/
structure DivOp where
  /-- MODEL: names the pending result -/
  tag : Nat
  val : W64
  flags : BitVec 5
  /-- the cycle in which the result arrives -/
  due : Nat
  /-- the nominal slot time of its word -/
  issued : Nat
  /-- it is of `fdiv` or `fsqrt`, which set flags as it arrives (05 R110, R130) -/
  float : Bool
  deriving DecidableEq, Repr

/-- What an order-handle register holds when it is not empty (08 R199). -/
structure Handle where
  id : W32
  scope : Scope
  deriving DecidableEq, Repr

/-- A strip of a read stream that has been fetched ahead (13 R326): its bytes, or the trap of its fetch. -/
structure Strip where
  bytes : List Byte
  trap : Option (BitVec 8)
  deriving DecidableEq, Repr

/-- A stream register's binding (13 R323-R327). -/
structure Stream where
  record : W64
  /-- the record's 32 bytes -/
  shape : BitVec 256
  write : Bool
  pos : Nat
  depth : Nat
  /-- pops since the last wait (13 R326) -/
  quiet : Nat
  /-- the pop that comes next has had to wait -/
  waited : Bool
  fetched : List Strip
  /-- the fetch of the next strip is parked on this page-table entry (`State.parkKey`) since a time (07 R181) -/
  parked : Option (Nat × Nat)
  /-- MODEL: the tags of pushed strips that may not be performed yet -/
  tags : List Nat
  /-- the time at which the fetch of the next strip began (07 R168) -/
  since : Nat := 0
  deriving DecidableEq, Repr

/-- The state of the running handler that a migration carries (07 R177): Table 1-4 and the per-run CSRs. -/
structure Thread where
  /-- s0-s31 (01 R15); entry 0 is not used, s0 reads 0 -/
  s : Vector W64 32
  /-- v0-v31 (01 R15) -/
  v : Vector W512 32
  /-- p0-p7 (01 R15); entry 0 is not used, p0 reads all ones -/
  p : Vector W64 8
  /-- h0-h15 (01 R15, 08 R199); entry 0 is not used, h0 is the default handle -/
  h : Vector (Option Handle) 16
  /-- the held weight w (01 R15) -/
  w : W32
  /-- the future mask (12 R265) -/
  fmask : BitVec 16
  /-- FLAGS (05 R109) -/
  flags : BitVec 5
  /-- RMODE (05 R111) -/
  rmode : W64
  /-- VTT (13 R299) -/
  vtt : W64
  /-- SCALEB.OFF (07 R167) -/
  scaleb : BitVec 16
  /-- CTL.HOMEPOL (06 R134) -/
  homepol : BitVec 2
  /-- PC of the next slot (03 R53) -/
  pc : W64
  /-- nominal slot time of the next slot (03 R58) -/
  nom : Nat
  /-- results not yet visible (03 R59) -/
  pend : List Pending
  /-- flags not yet in FLAGS (05 R110) -/
  pendFlags : List PendFlags
  /-- the divider's pending result (04 R84) -/
  div : Option DivOp
  /-- draws of this run (09 R226) -/
  draws : Nat
  /-- run priority (12 R272) -/
  prio : BitVec 4
  /-- the run's frame, 0 for none (12 R269) -/
  frame : W64
  /-- vintage of the run (09 R227) -/
  vint : BitVec 16
  /-- MODEL: names the run, so that what is on its way to it reaches no later one (09 R227) -/
  run : Nat
  /-- the eight live generator descriptors (07 R172) -/
  gens : Vector (BitVec 512) 8
  /-- the bindings of q0-q3 (13 R323) -/
  streams : Vector (Option Stream) 4
  deriving DecidableEq, Repr

/-! ## Memory accesses -/

/-- What an outstanding entry of a core's access list is. -/
inductive AccKind where
  /-- a load: the value goes to the pending results of its tag -/
  | load
  | store
  /-- an atomic by its opcode order in Table 3-9 (07 R189); 9 is `cas` -/
  | atomic (op : Nat)
  /-- a vector atomic (13 R322): operation and lane width, with its predicate and zeroing bit in the data -/
  | vatomic (op width : Nat) (pred : W64) (zeroing : Bool)
  | waita
  /-- a join ticket (08 R210, R211): no bytes, performed once the listed accesses are -/
  | join
  /-- a holder that `hfree` gives up, once every earlier word has cleared (08 R212, 06 R141) -/
  | unhold (id : W32)
  deriving DecidableEq, Repr

/-- How the bytes of a load become its value. -/
inductive LoadForm where
  /-- zero-extended scalar -/
  | zext
  /-- sign-extended scalar -/
  | sext
  /-- the bytes of a vector register, through format window `fmt` (07 R166) -/
  | vec (fmt : Nat)
  /-- lane `i` of width `w` of a gather (13 R321) -/
  | lane (i w : Nat)
  deriving DecidableEq, Repr

/-- A memory access that has issued and is not yet done (07 R186, 08 R195-R203). -/
structure Access where
  /-- MODEL: names it -/
  tag : Nat
  kind : AccKind
  form : LoadForm
  /-- the address the word named -/
  addr : W64
  /-- the address of each byte touched, the data bytes first and then scale bytes -/
  bytes : List Nat
  /-- the bytes to store, or the operand of an atomic -/
  data : List Byte
  /-- second operand of `cas` -/
  data2 : W64
  /-- sequencer of the named handle, none for h0 -/
  handle : Option Handle
  ord : Ord
  scope : Scope
  hint : Hint
  /-- the ticket, once the sequencer has given it (08 R200) -/
  ticket : Option Nat
  /-- for a join: the accesses of this core it waits for, by tag, and the tickets it waits for, by sequencer -/
  prior : List Nat
  priorTickets : List (Nat × Nat)
  /-- performed at its home, and the bytes it returned -/
  performed : Bool
  result : List Byte
  /-- nothing can make it fault any more (06 R141) -/
  cleared : Bool
  /-- the PC of its word -/
  pc : W64
  /-- parked on this page-table entry (`State.parkKey`) since a time (07 R181) -/
  parked : Option (Nat × Nat)
  /-- MODEL: the thread and INSTRET before its word, restored when the word faults after later words have issued
  (06 R141) -/
  before : Thread
  instret : W64
  /-- sequence tag and lost transmissions of an atomic to another device (07 R190) -/
  losses : Nat
  /-- the quantum commit must perform it (12 R283) -/
  held : Bool
  /-- the first cycle in which its value can be at the core: the fixed latency of a scratchpad bank (01 R13) -/
  due : Nat := 0
  /-- the time at which it was issued or last went on, by which a device that does not answer is given up (07 R183, 17
  R372) -/
  since : Nat := 0
  /-- for a join of a named handle: the handle and its next ticket at the word, Prior's end (08 R210, R211) -/
  mark : Option (W32 × Nat) := none
  deriving DecidableEq, Repr

/-- A result for a bound stream register on its way: it is pushed as a strip once it is visible (13 R325). -/
structure Push where
  /-- v28 to v31 -/
  reg : Nat
  val : W512
  issued : Nat
  /-- the nominal slot time at which it is visible; none for an interlocked result that has not arrived -/
  visible : Option Nat
  /-- MODEL: names the access that an interlocked result comes from -/
  tag : Nat
  /-- its word's PC; the thread and INSTRET before the word -/
  pc : W64
  before : Thread
  instret : W64
  deriving DecidableEq, Repr

/-- A cached line (07 R175, R178, R402; 08 R205). L1, L2 and the visitor portion are held as one set of lines: `l1`
says which core's L1, if any, holds the line. -/
structure Line where
  /-- memory key of its first byte -/
  pa : Nat
  data : W512
  dirty : Bool
  hint : Hint
  l1 : Option Nat
  /-- uncorrectable 8-byte words (07 R185) -/
  bad : BitVec 8
  deriving DecidableEq, Repr

/-- A store to a line of another device that some visitor copies have not followed yet: its thread (`threadKey`), its core
and tag, and the handle and ticket it had. -/
structure Writer where
  thread : Nat
  core : Nat
  tag : Nat
  ticket : Option (W32 × Nat)
  deriving DecidableEq, Repr

/-- A visitor copy of a line of another device that a later write has not invalidated yet (08 R205). -/
structure Visitor where
  die : Nat
  /-- virtual line number -/
  line : Nat
  data : W512
  /-- the stores of this device that it is older than -/
  writers : List Writer
  /-- the threads that have read or written a later value of one of its locations, with the location (08 R196) -/
  past : List (Nat × Nat)
  deriving DecidableEq, Repr

/-- Memory and cached lines as a core's fetch sees them since it was last made coherent with stores (03 R55). -/
structure CodeView where
  mem : List Host.Cell
  enc : FMap W512
  cache : FMap Line
  deriving DecidableEq, Repr

/-- A protection entry (06 R155). -/
structure PlbEntry where
  base : BitVec 56
  pages : W32
  domain : BitVec 12
  rights : BitVec 6
  deriving DecidableEq, Repr

/-! ## Messages and packets -/

/-- A message (09 R217). -/
structure Msg where
  kf : BitVec 16
  vint : BitVec 16
  weight : W32
  src : W32
  hnd : W32
  payload : List W64
  /-- the context it belongs to, which routes it -/
  ctx : Nat
  deriving DecidableEq, Repr

/-- Where a packet goes. -/
inductive Dest where
  | core (n : Nat)
  /-- an endpoint of another device -/
  | remote (id : W32)
  /-- the home core of a context -/
  | home (ctx : Nat)
  /-- a slice queue by its handle -/
  | queue (handle : W32)
  deriving DecidableEq, Repr

/-- What a packet carries between agents. -/
inductive Body where
  /-- a message; `mcst` names the multicast member it is -/
  | msg (m : Msg) (member : Option Nat)
  /-- a START for a run queue: priority and code pointer -/
  | start (m : Msg) (prio : Nat) (code : W64)
  /-- the acceptance that returns a send credit (09 R222) -/
  | credit
  /-- a weight return (09 R227) -/
  | wret (vint : BitVec 16) (units : Nat)
  /-- a draw request and its withdrawal (09 R226) -/
  | draw (run : Nat)
  | grant (vint : BitVec 16) (units : Nat) (run : Nat)
  /-- a `qenq` of a run on its way to its slice (09 R244) -/
  | qask (m : Msg) (run : Nat)
  /-- the answer to `qenq` (09 R244) -/
  | qans (status : Nat) (units : Nat) (vint : BitVec 16) (run : Nat)
  /-- pop request and its withdrawal (12 R280) -/
  | pop
  | unpop
  /-- a migrating thread (07 R177), whether `migr` sent it and its status register -/
  | migrate (t : Thread) (status : Option Nat)
  /-- a yield request on its way to a core, or its withdrawal (06 R158) -/
  | yreq (on : Bool)
  /-- a reclamation mark: the producer's frame and its future (12 R267) -/
  | mark (frame fut : W64)
  /-- a holder of an order handle is given up, at a quantum end (12 R284) -/
  | unhold (id : W32)
  /-- held effects of `fset` (with the tag of its status), `fref` and `fdrop` (12 R284) -/
  | fset (f : Nat) (val : W64) (tag : Nat)
  | fref (f : Nat)
  | fdrop (f : Nat)
  deriving DecidableEq, Repr

/-- A packet in flight; packets of one source to one target keep their order (01 R14). -/
structure Packet where
  src : Nat
  dest : Dest
  ctx : Nat
  body : Body
  /-- its write to a ring is parked on this page-table entry (`State.parkKey`) since a time (09 R233) -/
  parked : Option (Nat × Nat) := none
  /-- it has reached its target, which cannot take it yet: it keeps no packet of another kind behind it -/
  arrived : Bool := false
  /-- CTL.PL and REGION of its core as it was sent (09 R234) -/
  level : BitVec 2 := 0
  region : W32 := 0
  /-- the time at which a packet for another device came to its gateway (09 R221, 17 R372) -/
  since : Option Nat := none
  deriving DecidableEq, Repr

/-- A packet that a word has emitted while an earlier word can still fault: it leaves the core once none can (06 R141). -/
structure Later where
  /-- INSTRET before its slot -/
  instret : W64
  pkt : Packet
  /-- it is a message, which has taken a send credit -/
  msg : Bool
  deriving DecidableEq, Repr

/-- A multicast whose members have not all answered (09 R245). -/
structure Mcst where
  id : Nat
  ctx : Nat
  vint : BitVec 16
  unit : Nat
  total : Nat
  answered : Nat
  failed : BitVec 64
  deriving DecidableEq, Repr

/-! ## Engines -/

/-- A command of a copy engine (15 R338-R345). -/
structure CopyCmd where
  /-- the 128-byte descriptor -/
  desc : BitVec 1024
  /-- none, 0 xor, 1 add -/
  comb : Option (BitVec 1)
  tag : BitVec 8
  level : BitVec 2
  ctx : Nat
  vint : BitVec 16
  weight : Nat
  handle : Option Handle
  ticket : Option Nat
  /-- the issuing core's generator descriptors when it was issued (07 R193) -/
  gens : Vector (BitVec 512) 8
  validated : Bool
  /-- bytes of completed chunks -/
  count : Nat
  /-- the status and fault once it has ended -/
  status : Option (Nat × Nat × W64)
  /-- bytes read and not yet written, with their addresses: writes that wait for the quantum end (12 R284), or a
  contribution to a reduction (17 R370) -/
  held : List (Nat × Byte)
  /-- the bytes of its next chunk that are read (15 R341) -/
  buf : List Byte
  /-- how many of them are written -/
  put : Nat
  /-- a contribution waits for the switch (17 R370) -/
  waiting : Bool
  /-- a page walk is parked on this entry (`State.parkKey`) since a time (07 R181, 15 R342) -/
  parked : Option (Nat × Nat)
  /-- the address of that walk -/
  at_ : W64
  /-- the time at which it was issued or last went on (07 R183) -/
  since : Nat
  /-- MODEL: its place among the engine commands of its core (12 R284) -/
  order : Nat := 0
  deriving DecidableEq, Repr

/-- Where a tile task stands (15 R352, R353). -/
inductive TileState where
  | waiting
  /-- on a press -/
  | issued (press : Nat)
  /-- ended with a status, code 10 count and fault address, its writes made -/
  | done (status code10 : Nat) (fcode : Nat) (faddr : W64)
  deriving DecidableEq, Repr

/-- A tile task held by a tile scheduler (15 R360). -/
structure TileTask where
  record : BitVec 1024
  ta : W32
  tb : W32
  poster : Nat
  level : BitVec 2
  ctx : Nat
  vint : BitVec 16
  cell : W64
  handle : Option Handle
  ticket : Option Nat
  /-- tags of the poster's accesses it waits for -/
  after : List Nat
  status : TileState
  marked : Bool
  /-- after its last K step: the count of code 10 and the elements that are still to be written, with their addresses (15
  R352), at the quantum end in a deterministic region (15 R354) -/
  out : Option (Nat × List (W64 × List Byte))
  /-- its result write has begun (15 R353) -/
  begun : Bool
  /-- a page walk is parked on this entry (`State.parkKey`) since a time (07 R181) -/
  parked : Option (Nat × Nat)
  /-- the address of that walk -/
  at_ : W64
  /-- MODEL: its place among the engine commands of its core (12 R284) -/
  order : Nat := 0
  /-- the poster's live generator descriptors as it was posted (log entry 29) -/
  gens : Vector (BitVec 512) 8 := Vector.replicate 8 0
  /-- the time at which it was issued or last went on (07 R168) -/
  since : Nat := 0
  deriving DecidableEq, Repr

/-- A held gather or scatter in the replay queue (13 R329): the destination of a gather and its whole value, with the
lanes that have returned in place, and its unperformed lanes. -/
structure Held where
  tag : Nat
  dest : Option Nat
  val : W512
  lanes : List Access
  deriving DecidableEq, Repr

/-- What a `vsave` block holds (13 R330): the layout of its bytes is private to the device. -/
structure VBlock where
  ctx : W32
  held : List Held
  streams : Vector (Option Stream) 4
  restored : Bool
  /-- the core and the INSTRET of the `vrest` that restored it -/
  by_ : Nat × W64
  deriving DecidableEq, Repr

/-! ## Cores -/

/-- How the last slot of a core ended (MODEL). -/
inductive SlotEnd where
  | done | trapped | waiting
  deriving DecidableEq, Repr

/-- What a core does (06 R131, R140, R154; 17 R375). -/
inductive RunState where
  | running
  /-- runs no handler -/
  | idle
  /-- waits in the word `idle` -/
  | asleep
  /-- `idle` has ended: a pending cause is taken before the next slot -/
  | waking
  /-- stopped by a machine check -/
  | stopped
  /-- held in reset -/
  | inReset
  deriving DecidableEq, Repr

/-- The words of the slot being issued (MODEL: the issue register). -/
structure Issue where
  /-- PC of the word: its bundle, plus 4 for word 1 of a lone bundle -/
  pc : W64
  /-- PC of the slot after it -/
  next : W64
  /-- 1 when the word is word 1 of a bundle -/
  word1 : Bool
  /-- word 1 of a lone bundle, whose own PC a trap records -/
  lone1 : Bool
  insn : W32
  stall : Nat
  nom : Nat
  /-- INSTRET, RMODE and TERNBAD at the start of the slot -/
  instret : W64
  rmode : W64
  ternbad : W32 := 0
  /-- the thread at the start of the slot, for a fault of one of its memory words (06 R141) -/
  before : Thread
  deriving DecidableEq, Repr

/-- A transaction that a waiting word has begun (MODEL). -/
inductive Txn where
  | none
  /-- a draw request is out; the units that the word has gained (09 R226, R249) -/
  | draw (gained : Nat)
  /-- `hnew` or `hfork` waits for its grant (08 R209) -/
  | grant
  /-- a grant came: the units gained so far -/
  | drawn (gained : Nat)
  /-- `qenq` waits for its answer (09 R244) -/
  | qenq
  /-- the answer of `qenq` -/
  | answered (status : Nat)
  /-- asleep on a queue (09 R235) -/
  | asleep (handle : W32)
  /-- the queue it slept on was freed (09 R246) -/
  | freed
  /-- an entry taken for a sleeper (09 R235) -/
  | item (m : Msg)
  /-- arrived at a barrier (09 R255): word, level, mask -/
  | barrier (rack : Bool) (level mask : Nat)
  /-- the barrier completed -/
  | barDone
  /-- marks of a waiting `hjoin` or `fence`: sequencers and their next tickets, and its join tickets at sequencers of other
  devices, by tag (08 R211, R214) -/
  | marks (ms : List (Nat × Nat)) (tags : List Nat)
  /-- in `waita`: its access, and whether it sleeps on the bank monitor (07 R192) -/
  | waita (tag : Nat) (asleep : Bool)
  /-- the signal word differed: its value -/
  | waited (val : W64)
  deriving DecidableEq, Repr

/-- A core: its thread and everything else it holds. -/
structure Core where
  t : Thread
  -- special registers
  /-- CTL.PL (06 R131) -/
  pl : BitVec 2
  /-- CTL.CHECK (03 R62) -/
  check : Bool
  /-- CTL.DZT (04 R80) -/
  dzt : Bool
  /-- CTXID (06 R133) -/
  ctxid : W32
  /-- REGION and its bit SUPV (06 R139) -/
  region : W32
  supv : Bool
  /-- TERNBAD (05 R100) -/
  ternbad : W32
  /-- INSTRET (03 R66) -/
  instret : W64
  tvec : W64
  tcause : W64
  tval : W64
  tpc : W64
  sscratch : W64
  mvec : W64
  mscratch : W64
  -- running
  run : RunState
  iss : Issue
  slot : SlotEnd
  txn : Txn
  /-- the cycle from which the next slot can issue (03 R57) -/
  ready : Nat
  /-- a fetch, or a word that waits for its own access, parked on a page-table entry (`State.parkKey`) since a time, with its address
  (07 R181) -/
  fpark : Option (Nat × Nat × W64)
  /-- the word that waits for another device has waited since a time, for an access at an address (07 R168, R183) -/
  silent : Option (Nat × W64)
  /-- the read of its generator descriptors, at a start or resume, is parked on a page-table entry (`State.parkKey`) since a
  time (07 R172, R181) -/
  gpark : Option (Nat × Nat)
  /-- FLAGS with their region since each cycle, newest first, of the last 64 cycles (05 R112) -/
  flagHist : List (Nat × Option W32 × BitVec 5)
  /-- MODEL: the next name of an access or a result -/
  nextTag : Nat
  /-- the reclamation mark of the run has arrived (12 R267) -/
  marked : Bool
  /-- a yield request of the context has arrived, and PREEMPT is pending for this run (06 R142, R158) -/
  yreq : Bool
  preempt : Bool
  /-- region events pending at this core, in order of arrival: code and CTXID (06 R142) -/
  events : List (BitVec 8 × W32)
  /-- the slot after the `idle` at which the running trap routine was entered (06 R142, R154) -/
  idleAt : Option W64
  -- memory
  mem : List Access
  /-- results for bound stream registers that are not pushed yet, in order of issue (13 R325) -/
  pushes : List Push
  plb : Vector PlbEntry 64
  /-- predictor entries: HOME and RUN (07 R176) -/
  pred : Vector (BitVec 12 × BitVec 3) 256
  /-- forwarding entries: target core, expiry in ns, and the run that left (07 R177) -/
  fwd : List (Nat × Nat × Nat)
  /-- bundles fetched since fetch was last made coherent (03 R55) -/
  icache : List (Nat × W64)
  /-- memory as it was then; none where no start, resume or `tret` has been made since a reset: memory as at the reset -/
  code : Option CodeView
  replay : List Held
  /-- the held words that are issued again, by the INSTRET of the word that completes them and their tag (13 R331, R332) -/
  reissued : List (W64 × Nat)
  /-- packets that wait for earlier words to clear, oldest first (06 R141) -/
  later : List Later
  /-- engine writes are acquired up to here (08 R206) -/
  acquired : Bool
  -- messages
  inbox : List Msg
  credits : Nat
  mcsts : List Mcst
  /-- the armed watch: its queue, its tag and the vintage of its unit (09 R254) -/
  watch : Option (W32 × BitVec 8 × BitVec 16)
  popReq : Bool
  /-- MODEL: the member list that a waiting `mcst` has read (09 R245) -/
  listed : Option (List W64)
  -- engines
  copyq : List CopyCmd
  -- racking: which physical half is live (09 R237)
  live : Bool
  -- cordon (12 R285): the members of the cordon this core leads, or its leader; LANE and CORDSZ
  members : List Nat
  leader : Option Nat
  lane : BitVec 4
  cordsz : BitVec 5
  /-- waits in `tret` for the other members (06 R144) -/
  tretWait : Bool
  /-- every member has issued it: this one's `tret` completes at its next slot -/
  tretGo : Bool
  -- deterministic quantum (12 R283)
  qcount : Nat
  qended : Bool
  qgo : Bool
  heldOut : List Packet
  /-- armed injections: kinds 0, 1 (with its delay) and 4 (06 R163) -/
  injVanish : Bool
  injHold : Option Nat
  injParity : Bool
  deriving DecidableEq, Repr

/-! ## Contexts, queues and sequencers -/

/-- The resolved fields of a region control block (12 R274, Table 12-6). -/
structure Rcb where
  modef : BitVec 16
  prio : BitVec 8
  nlog : BitVec 8
  fdom : BitVec 16
  pdom : BitVec 16
  keyslot : BitVec 8
  drawlim : BitVec 8
  qshare : BitVec 16
  quantum : W32
  qdeadline : W32
  parklim : W32
  savert : W64
  quiesce : W64
  inboxent : W64
  genblk : W64
  fheap : W64
  fheapn : W32
  framesz : W32
  fpool : W64
  fpooln : W32
  spillq : W32
  graph : W64
  place : W64
  cq : List W32
  bcores : BitVec 16
  bpress : BitVec 16
  bscr : W32
  bpages : W32
  govhi : W32
  govlo : W32
  govmask : BitVec 16
  deriving DecidableEq, Repr

/-- A context (01 R23; 09 R228; 12 R274-R282). -/
structure Ctx where
  /-- address of its RCB -/
  rcbAddr : W64
  /-- its place in the region tree: its CTXID and those that its ancestors' RCBs name, nearest first (06 R139, R158) -/
  lineage : List Nat
  rcb : Rcb
  cores : List Nat
  home : Nat
  /-- the home counter -/
  H : Nat
  vint : BitVec 16
  voidcnt : W32
  saved : Bool
  /-- the yield request and when it was set, in ns -/
  yreq : Option Nat
  /-- a WEIGHT_LOST audit has been made for this yield request (09 R231) -/
  lost : Bool
  /-- idle cores whose pop requests wait, oldest first (12 R280) -/
  pops : List Nat
  /-- cores whose draw requests the home core holds, with their runs (09 R226) -/
  draws : List (Nat × Nat)
  skip : List Nat
  /-- heads of the sixteen overflow chains (12 R279) -/
  chains : List W64
  /-- first page frame address and count of 2 MiB pages (17 R387) -/
  pageBase : W64
  npages : Nat
  devices : List Nat
  /-- quantum ends since install (12 R283) -/
  seq : W32
  /-- stage queue of each core (12 R281), and a core waiting to be rebound -/
  stages : List (Nat × Nat)
  govAt : Nat
  /-- region events held until a supervisor core is designated (06 R139) -/
  events : List (BitVec 8)
  /-- reclamation marks set while it was saved: frames and futures (06 R159) -/
  marks : List (W64 × W64)
  /-- address of the lowest-numbered free frame, 0 for none (12 R269) -/
  freeHead : W64
  /-- frames of ended tasks that have not returned (12 R273) -/
  ended : List W64
  /-- the save block that `ctxsave` wrote (18 R389) -/
  block : W64
  /-- stages from and to which the next cores that become idle are rebound, oldest first (12 R281) -/
  rebind : List (Nat × Nat)
  /-- a quantum is being committed (12 R284) -/
  committing : Bool
  /-- the cores whose step 1 is still to come, and whether step 2 is -/
  toCommit : List Nat
  engines : Bool
  deriving DecidableEq, Repr

/-- A queue descriptor (09 R232-R235, R254). -/
structure Queue where
  gen : BitVec 12
  live : Bool
  base : W64
  k : Nat
  head : Nat
  tail : Nat
  owner : W32
  sleepers : List Nat
  /-- the cores that watch it, with their tags, oldest first -/
  watch : List (Nat × BitVec 8)
  deriving DecidableEq, Repr

/-- A sequencer (08 R199-R201). -/
structure Seqr where
  gen : BitVec 4
  alloc : Bool
  holders : Nat
  scope : Scope
  /-- the context that allocated it (08 R202) -/
  owner : Nat
  next : Nat
  /-- tickets given and not performed -/
  opens : List Nat
  deriving DecidableEq, Repr

/-! ## The device -/

/-- A link's keys and counters (17 R372, R373). -/
structure Link where
  keyA : Option (BitVec 352)
  keyB : Option (BitVec 352)
  liveB : Bool
  /-- the slot of this end's receiver is B (17 R372) -/
  recvB : Bool
  count : Nat
  marker : Bool
  down : Bool
  keydue : Bool
  /-- the transmitter holds its flits (17 R372) -/
  holding : Bool
  replays : Nat
  deriving DecidableEq, Repr

/-- A reduction-group record (17 R371). -/
structure RedCfg where
  ctrl : W64
  rbase : W64
  mlist : W64
  state : BitVec 2
  /-- RBASE and the member list as they were at the arming -/
  base : W64
  list : List Nat
  deriving DecidableEq, Repr

/-- A registration of another device that the switch holds (17 R371). -/
structure Member where
  group : Nat
  dev : Nat
  op : Nat
  etype : Nat
  list : List Nat
  deriving DecidableEq, Repr

/-- A core or a page of 2 MiB that is held after a release (17 R380). -/
structure HeldRes where
  page : Bool
  /-- the core's number, or the page's first address -/
  num : Nat
  /-- the region that held it and its ancestors, by CTXID -/
  lineage : List Nat
  /-- a MODE 0 scrub began after the release -/
  freeable : Bool
  deriving DecidableEq, Repr

/-- A message held by `errinj` until a time (06 R163). -/
structure HeldMsg where
  until_ : Nat
  pkt : Packet
  deriving DecidableEq, Repr

/-- The operands of the step being executed (MODEL): the agent it happens at, which of its entries it concerns, and what
the outside world supplies. -/
structure Ev where
  core : Nat
  pick : Nat
  /-- an address or a number from outside -/
  val : W64
  /-- bytes from outside -/
  data : List Byte
  /-- an answer from outside: an image accepted, a device that answers -/
  ok : Bool
  deriving DecidableEq, Repr

/-- What moves next (MODEL). -/
inductive Act where
  /-- the core issues its next slot -/
  | slot
  /-- a step of the opcode table that no word encodes -/
  | event (i : Instr)
  /-- time passes: cycles and quarter nanoseconds -/
  | tick (cycles quarterNs : Nat)
  /-- a cached line leaves the chip's caches, written back if dirty -/
  | evict (line : Nat)
  /-- bytes of host or remote memory change from outside -/
  | outside (key : Nat) (bytes : List Byte)
  /-- a page begins or ends its migration between memories (07 R184) -/
  | movePage (page : Nat) (start : Bool)
  /-- the invalidation of a visitor copy arrives: die and virtual line number (08 R205) -/
  | dropStale (die line : Nat)
  /-- a flit crosses a link, for its invocation counter (17 R372) -/
  | flit (link : Nat)
  deriving DecidableEq, Repr

/-- One coming turn (MODEL). -/
structure Turn where
  act : Act
  ev : Ev
  deriving DecidableEq, Repr

/-- The state of the machine. -/
structure State where
  -- cores
  /-- cores by logical number; a core not listed is as after reset -/
  cores : FMap Core
  -- parts and time
  /-- CAPS (00 R2, 06 R135) -/
  caps : W64
  /-- TIME in quarter nanoseconds, one cycle at full clock (06 R133) -/
  quarters : Nat
  /-- CYCLE (06 R133) -/
  cycle : Nat
  /-- quarter nanoseconds a cycle takes: 1 at full clock (17 R382) -/
  cycleLen : Nat
  -- memory
  /-- every memory, by key, as address and byte pairs -/
  mem : List Host.Cell
  /-- the key under which a line of memory is stored enciphered, by physical line number (17 R374) -/
  enc : FMap W512
  /-- cached lines by virtual line number -/
  cache : FMap Line
  /-- visitor copies that a write has not invalidated yet, in the order in which they became old, one for a die and line at
  most (08 R205) -/
  stale : List Visitor
  /-- uncorrectable ECC words of memory, by key (07 R185) -/
  bad : List Nat
  /-- pages under migration (07 R184) -/
  moving : List Nat
  /-- WALKROOT (07 R180) -/
  walkroot : W64
  /-- casks that are open, by die (15 R355) -/
  caskOpen : BitVec 2
  /-- dies whose `caskseal` waits for accepted writes (15 R356) -/
  caskSealing : BitVec 2
  /-- bank groups in refresh, die × 32 + group (07 R170) -/
  refresh : List Nat
  -- order
  /-- sequencers by device × 16,384 + slice × 256 + index -/
  seqrs : FMap Seqr
  -- messages and queues
  net : List Packet
  heldMsgs : List HeldMsg
  /-- queue descriptors by slice × 1,024 + index -/
  queues : FMap Queue
  -- contexts
  ctxs : FMap Ctx
  /-- FLAGSUM.ACC by region × 64 + supergroup (05 R112) -/
  flagAcc : FMap (BitVec 5)
  /-- contributions to it with their cycles: those of the cycle of a clear stay set (05 R112) -/
  flagNew : List (Nat × Nat × BitVec 5)
  -- engines
  /-- tile tasks of each supergroup, oldest first (15 R352) -/
  tiles : FMap (List TileTask)
  -- fabric
  links : FMap Link
  redcfg : FMap RedCfg
  /-- other devices' registrations (17 R371) -/
  members : List Member
  /-- replay cache of atomics from other devices: source, link, tag and result (07 R190) -/
  replayCache : List (Nat × Nat × Nat × W64)
  -- system registers
  trigstat : W64
  scrubBusy : Bool
  scrubErr : Bool
  scrubCur : BitVec 56
  scrubMode : BitVec 1
  scrubEnd : BitVec 56
  scrubPend : W64
  /-- a reset found SCRUBPEND.PEND set, and the restarted scrub has not completed (17 R378) -/
  rescrub : Bool
  lcstate : BitVec 2
  isolate : W64
  /-- supergroups out of service (17 R381) -/
  isolated : List Nat
  /-- supergroups served by a spare after a repair (01 R11) -/
  repaired : List Nat
  /-- one-time key index (17 R375) -/
  lmsIndex : W64
  /-- the XTS key slots that hold a key (17 R374) -/
  keys : FMap (Option W512)
  /-- cores and pages held after a release (17 R380) -/
  held : List HeldRes
  /-- firmware image accepted (17 R375) -/
  firmware : Bool
  /-- memory as it was at the last reset, which a core fetches from until its first start, resume or `tret` (03 R55) -/
  boot : CodeView
  /-- the blocks that `vsave` has written, by number (13 R330) -/
  vblocks : FMap VBlock
  -- MODEL
  /-- the name of the next run -/
  nextRun : Nat
  /-- the operands of the step being executed -/
  ev : Ev
  /-- the coming turns; empty lets the default rule choose -/
  agenda : List Turn
  /-- what the host was last answered: an error, or the bytes read -/
  hostOut : Option (List Byte)
  /-- what another device was last answered -/
  fabOut : Option (List Byte)
  deriving DecidableEq, Repr

/-- Why the machine stops with a fault. -/
inductive Fault where
  /-- Raised by `step` when a turn of the agenda names a core that the part does not have (00 R4). Safe. -/
  | noSuchCore
  deriving DecidableEq, Repr

/-- Why an instruction has no meaning here. -/
inductive Refusal where
  /-- Raised by `exec` for a row that is not modelled. Safe. -/
  | notModelled (mnemonic : String)
  deriving DecidableEq, Repr

/-! ## Reset -/

def Thread.reset : Thread where
  s := Vector.replicate 32 0
  v := Vector.replicate 32 0
  p := Vector.replicate 8 0
  h := Vector.replicate 16 none
  w := 0
  fmask := 0
  flags := 0
  rmode := 1
  vtt := 0
  scaleb := 0
  homepol := 0
  pc := 0
  nom := 0
  pend := []
  pendFlags := []
  div := none
  draws := 0
  prio := 0
  frame := 0
  vint := 0
  run := 0
  gens := Vector.replicate 8 0
  streams := Vector.replicate 4 none

def Issue.reset : Issue :=
  { pc := 0, next := 0, word1 := false, lone1 := false, insn := 0, stall := 0, nom := 0, instret := 0, rmode := 1,
    before := Thread.reset }

def PlbEntry.reset : PlbEntry := { base := 0, pages := 0, domain := 0, rights := 0 }

/-- A core after a reset: machine level, every register the spec gives a reset value at that value, the others at the
value log entry 2 names. -/
def Core.reset : Core where
  t := Thread.reset
  pl := 2
  check := false
  dzt := false
  ctxid := 0
  region := 0
  supv := false
  ternbad := 0
  instret := 0
  tvec := 0
  tcause := 0
  tval := 0
  tpc := 0
  sscratch := 0
  mvec := 0
  mscratch := 0
  run := .running
  iss := Issue.reset
  slot := .done
  txn := .none
  ready := 0
  fpark := none
  silent := none
  gpark := none
  flagHist := []
  nextTag := 0
  marked := false
  yreq := false
  preempt := false
  events := []
  idleAt := none
  mem := []
  pushes := []
  plb := Vector.replicate 64 PlbEntry.reset
  pred := Vector.replicate 256 (0, 0)
  fwd := []
  icache := []
  code := none
  replay := []
  reissued := []
  later := []
  acquired := false
  inbox := []
  credits := 16
  mcsts := []
  watch := none
  popReq := false
  listed := none
  copyq := []
  live := false
  members := []
  leader := none
  lane := 0
  cordsz := 1
  tretWait := false
  tretGo := false
  qcount := 0
  qended := false
  qgo := false
  heldOut := []
  injVanish := false
  injHold := none
  injParity := false

def Queue.reset : Queue :=
  { gen := 1, live := false, base := 0, k := 0, head := 0, tail := 0, owner := 0, sleepers := [], watch := [] }

def Seqr.reset : Seqr := { gen := 1, alloc := false, holders := 0, scope := .core, owner := 0, next := 0, opens := [] }

def Link.reset : Link :=
  { keyA := none, keyB := none, liveB := false, recvB := false, count := 0, marker := false, down := false, keydue := false,
    holding := false, replays := 0 }

def RedCfg.reset : RedCfg := { ctrl := 0, rbase := 0, mlist := 0, state := 0, base := 0, list := [] }

def Ev.none : Ev := { core := 0, pick := 0, val := 0, data := [], ok := false }

/-- CAPS of a TR80 that is device 0: 16 stacks, 4 CXL ports, revision 1, two dies, cask, FP64 press (06 Table 6-3). -/
def capsTR80 : W64 := 0x0000_0000_0010_4107

/-- The machine right after a cold reset. -/
def State.reset : State where
  cores := []
  caps := capsTR80
  quarters := 0
  cycle := 0
  cycleLen := 1
  mem := []
  enc := []
  cache := []
  stale := []
  bad := []
  moving := []
  walkroot := 0
  caskOpen := 0
  caskSealing := 0
  refresh := []
  seqrs := []
  net := []
  heldMsgs := []
  queues := []
  ctxs := []
  flagAcc := []
  flagNew := []
  tiles := []
  links := []
  redcfg := []
  members := []
  replayCache := []
  trigstat := 0
  scrubBusy := false
  scrubErr := false
  scrubCur := 0
  scrubMode := 0
  scrubEnd := 0
  scrubPend := 0
  rescrub := false
  lcstate := 0
  isolate := 0
  isolated := []
  repaired := []
  lmsIndex := 0
  keys := []
  held := []
  firmware := true
  boot := { mem := [], enc := [], cache := [] }
  vblocks := []
  nextRun := 1
  ev := Ev.none
  agenda := []
  hostOut := none
  fabOut := none

end Sys2Proof.Machine
end

