-- ==== Sys2Proof/Machine/Ops.lean ====
section
/-!
DEFINITION. The named operations that every meaning uses: cores of the state, reading and writing registers with their
pending results (03 R58-R64), how a word ends, taking a trap (06 R140) and returning from one (06 R152).
-/
namespace Sys2Proof.Machine

/-! ## Cores -/

/-- The core with a logical number. -/
def State.coreAt (s : State) (n : Nat) : Core := FMap.getD s.cores n Core.reset
/-- The state with a core replaced. -/
def State.setCore (s : State) (n : Nat) (c : Core) : State := { s with cores := FMap.put s.cores n c }
/-- The core that the step happens at. -/
def State.cur (s : State) : Core := s.coreAt s.ev.core
/-- The state with that core replaced. -/
def State.setCur (s : State) (c : Core) : State := s.setCore s.ev.core c
/-- The state with that core changed. -/
def State.modCur (s : State) (f : Core → Core) : State := s.setCur (f s.cur)
/-- The state with a core changed. -/
def State.modCore (s : State) (n : Nat) (f : Core → Core) : State := s.setCore n (f (s.coreAt n))

/-- CAPS.DIE1 (00 R2). -/
def State.die1 (s : State) : Bool := s.caps.getLsbD 0
/-- CAPS.CASK. -/
def State.hasCask (s : State) : Bool := s.caps.getLsbD 1
/-- CAPS.PF64. -/
def State.pf64 (s : State) : Bool := s.caps.getLsbD 2
/-- CAPS.DEVID (06 R135). -/
def State.devid (s : State) : Nat := (s.caps.extractLsb' 32 14).toNat
/-- The logical cores of the part: 4,096 with two dies, else 2,048 (00 R1). -/
def State.ncores (s : State) : Nat := if s.die1 then 4096 else 2048
/-- The supergroup of a core, DIE × 32 + SG (01 R9). -/
def sgOf (core : Nat) : Nat := core / 64
/-- The die of a core. -/
def dieOf (core : Nat) : Nat := core / 2048
/-- TIME, in nanoseconds (06 R133). -/
def State.time (s : State) : Nat := s.quarters / 4

/-! ## Registers -/

/-- The value a register's own file holds, without pending results. -/
def Thread.file (t : Thread) (f : RFile) (r : Nat) : W512 :=
  match f with
  | .s => if h : r < 32 then (t.s[r]).setWidth 512 else 0
  | .v => if h : r < 32 then t.v[r] else 0
  | .p => if h : r < 8 then (t.p[r]).setWidth 512 else 0

/-- The thread with a register's own file written. Writes to s0 and p0 are discarded (01 R15). -/
def Thread.setFile (t : Thread) (f : RFile) (r : Nat) (x : W512) : Thread :=
  match f with
  | .s => if h : 0 < r ∧ r < 32 then { t with s := t.s.set r (x.setWidth 64) h.2 } else t
  | .v => if h : r < 32 then { t with v := t.v.set r x h } else t
  | .p => if h : 0 < r ∧ r < 8 then { t with p := t.p.set r (x.setWidth 64) h.2 } else t

/-- The pending result is of this register. -/
def Pending.is (e : Pending) (f : RFile) (r : Nat) : Bool := decide (e.file = f) && decide (e.reg = r)
/-- The pending result is visible at a nominal slot time (03 R59). -/
def Pending.seen (e : Pending) (now : Nat) : Bool :=
  match e.visible with
  | some v => decide (v ≤ now)
  | none => false

/-- The register's value once the result is in it. -/
def Pending.onto (e : Pending) (old : W512) : W512 :=
  match e.mask with
  | none => e.val
  | some m => (old &&& ~~~m) ||| (e.val &&& m)

/-- The value that a word at nominal slot time `now` reads: the register's own with every earlier-issued result that is
visible (03 R64). A result of the same slot is not read (02 R41). -/
def Thread.read (t : Thread) (f : RFile) (r : Nat) (now : Nat) : W512 :=
  (t.pend.filter (fun e => e.is f r && decide (e.issued < now) && e.seen now)).foldl (fun x e => e.onto x) (t.file f r)

/-- The latest earlier-issued writer of a register that is still pending (03 R60). -/
def Thread.writer (t : Thread) (f : RFile) (r : Nat) (now : Nat) : Option Pending :=
  (t.pend.filter (fun e => e.is f r && decide (e.issued < now))).getLast?

/-- A result reaches its register. -/
def Thread.land (t : Thread) (e : Pending) : Thread := t.setFile e.file e.reg (e.onto (t.file e.file e.reg))

/-- A later result of the same register is visible (03 R60). -/
def Pending.overtaken (e : Pending) (l : List Pending) (now : Nat) : Bool :=
  l.any (fun o => o.seen now && o.is e.file e.reg && decide (e.issued < o.issued))

/-- Moves the results that are visible at `now` into their registers; an earlier result that is not visible when a later
one is, is discarded (03 R60). -/
def Thread.settle (t : Thread) (now : Nat) : Thread :=
  (t.pend.filter (fun e => e.seen now)).foldl Thread.land
    { t with pend := t.pend.filter (fun e => !e.seen now && !e.overtaken t.pend now) }

/-- An earlier pending result survives a later write only if it is visible no later (03 R60). One that has not arrived
survives a write that keeps some bits, until that is visible. DESIGN CHOICE (log entry 52): one that has not arrived is given up
as soon as a later word with a whole result has issued, so that no reader between the two sees it. -/
def Pending.survives (old new : Pending) : Bool :=
  match old.visible, new.visible with
  | some a, some b => decide (a ≤ b)
  | some _, none => new.mask.isSome
  | none, _ => new.mask.isSome

/-- Adds a pending result. A result for s0 or p0 is discarded. -/
def Thread.add (t : Thread) (e : Pending) : Thread :=
  if e.reg = 0 && e.file ≠ .v then t
  else
    let t := t.settle e.issued
    { t with pend := t.pend.filter (fun o => !o.is e.file e.reg || o.survives e) ++ [e] }

/-- An interlocked result arrives (03 R57): it is visible to every later word. A discarded one changes nothing. -/
def Thread.arrive (t : Thread) (f : RFile) (r : Nat) (tag : Nat) (x : W512) : Thread :=
  { t with pend := t.pend.map (fun e =>
      if e.is f r && decide (e.tag = tag) && e.visible.isNone then { e with val := x, visible := some e.issued } else e) }

/-- Makes every fixed-latency result visible, in issue order (03 R61). -/
def Thread.complete (t : Thread) : Thread :=
  (t.pend.filter (fun e => e.visible.isSome)).foldl Thread.land
    { t with pend := t.pend.filter (fun e => e.visible.isNone) }

/-- s[r] as the word being issued reads it. -/
def Core.rs (c : Core) (r : BitVec 5) : W64 :=
  if r = 0 then 0 else (c.t.read .s r.toNat c.iss.nom).setWidth 64
/-- v[r] as the word being issued reads it. -/
def Core.rv (c : Core) (r : BitVec 5) : W512 := c.t.read .v r.toNat c.iss.nom
/-- p[r] as the word being issued reads it. -/
def Core.rp (c : Core) (r : BitVec 3) : W64 :=
  if r = 0 then BitVec.allOnes 64 else (c.t.read .p r.toNat c.iss.nom).setWidth 64
/-- h[r] (08 R199). -/
def Core.rh (c : Core) (r : BitVec 4) : Option Handle := c.t.h[r.toNat]'r.isLt

/-- A fixed-latency result of the word being issued (03 R59). -/
def Core.out (c : Core) (f : RFile) (r : Nat) (x : W512) (lat : Nat) : Core :=
  { c with t := c.t.add { file := f, reg := r, val := x, mask := none, issued := c.iss.nom, visible := some (c.iss.nom + lat), tag := 0 } }
/-- A fixed-latency result that keeps some bits of its register (13 R302). -/
def Core.outMask (c : Core) (f : RFile) (r : Nat) (x : W512) (m : Option W512) (lat : Nat) : Core :=
  { c with t := c.t.add { file := f, reg := r, val := x, mask := m, issued := c.iss.nom, visible := some (c.iss.nom + lat), tag := 0 } }
/-- An interlocked result of the word being issued that is known at once. -/
def Core.outNow (c : Core) (f : RFile) (r : Nat) (x : W512) : Core := c.out f r x 0
/-- An interlocked result of the word being issued that will arrive. -/
def Core.expect (c : Core) (f : RFile) (r : Nat) (tag : Nat) : Core :=
  { c with t := c.t.add { file := f, reg := r, val := 0, mask := none, issued := c.iss.nom, visible := none, tag := tag } }
/-- An interlocked vector result that keeps some bits, with the lanes that are known already (13 R321, R322). -/
def Core.expectV (c : Core) (r : Nat) (tag : Nat) (x : W512) (m : Option W512) : Core :=
  { c with t := c.t.add { file := .v, reg := r, val := x, mask := m, issued := c.iss.nom, visible := none, tag := tag } }

/-- s[r] of the current core. -/
def State.rs (s : State) (r : BitVec 5) : W64 := s.cur.rs r
/-- p[r] of the current core. -/
def State.rp (s : State) (r : BitVec 3) : W64 := s.cur.rp r
/-- Writes s[d] with a fixed latency. -/
def State.outS (s : State) (d : BitVec 5) (x : W64) (lat : Nat) : State :=
  s.modCur (fun c => c.out .s d.toNat (x.setWidth 512) lat)
/-- Writes p[d] with a fixed latency. -/
def State.outP (s : State) (d : BitVec 3) (x : W64) (lat : Nat) : State :=
  s.modCur (fun c => c.out .p d.toNat (x.setWidth 512) lat)
/-- Writes v[d] with a fixed latency. -/
def State.outV (s : State) (d : BitVec 5) (x : W512) (lat : Nat) : State :=
  s.modCur (fun c => c.out .v d.toNat x lat)
/-- Writes the interlocked result s[d], known at once. -/
def State.nowS (s : State) (d : BitVec 5) (x : W64) : State := s.outS d x 0
/-- Writes the interlocked result p7. -/
def State.nowP7 (s : State) (ok : Bool) : State := s.outP 7 (if ok then BitVec.allOnes 64 else 0) 0
/-- Writes a handle register. -/
def State.setH (s : State) (r : BitVec 4) (h : Option Handle) : State :=
  s.modCur (fun c => { c with t := { c.t with h := c.t.h.set r.toNat h r.isLt } })

/-! ## How a word ends -/

/-- The result of a word's own effect. -/
inductive Res where
  /-- it takes effect -/
  | ok (s : State)
  /-- it traps and performs nothing -/
  | trap (code : BitVec 8) (tval : W64)
  /-- it waits: the state holds what it has begun -/
  | wait (s : State)
  deriving DecidableEq, Repr

/-- A change that a word makes where it takes effect. -/
def Res.onOk (r : Res) (f : State → State) : Res :=
  match r with
  | .ok s => .ok (f s)
  | r => r

/-- The slot advances: the next PC, the next nominal slot time (03 R58) and INSTRET (03 R66). -/
def Core.retire (c : Core) : Core :=
  { c with t := { c.t with pc := c.iss.next, nom := c.iss.nom + 1 + c.iss.stall },
           instret := c.instret + 1, slot := .done }
def State.retire (s : State) : State := s.modCur Core.retire

/-- The slot waits and is issued again. -/
def Core.hold (c : Core) : Core :=
  { c with t := { c.t with pc := c.iss.pc, nom := c.iss.nom }, instret := c.iss.instret, slot := .waiting }
def State.hold (s : State) : State := s.modCur Core.hold

/-- A word that waits, and stays on its core, has not trained the predictor yet (07 R176): `s` is the state before it. -/
def State.untrained (s' s : State) : State :=
  if s'.cur.run = .idle ∨ s'.cur.pred = s.cur.pred then s' else s'.modCur (fun c => { c with pred := s.cur.pred })

/-- The core sets the PC of the next slot. -/
def Core.jump (c : Core) (pc : W64) : Core := { c with t := { c.t with pc := pc } }
def State.jump (s : State) (pc : W64) : State := s.modCur (fun c => c.jump pc)

/-! ## Trap causes (06 Table 6-6) -/

abbrev cIllegal : BitVec 8 := 0x01
abbrev cPrivileged : BitVec 8 := 0x02
abbrev cStallShort : BitVec 8 := 0x03
abbrev cBadTarget : BitVec 8 := 0x04
abbrev cBadAddress : BitVec 8 := 0x05
abbrev cUnitAbsent : BitVec 8 := 0x06
abbrev cDivZero : BitVec 8 := 0x07
abbrev cUserTrap : BitVec 8 := 0x08
abbrev cWindowMisuse : BitVec 8 := 0x09
abbrev cGenStore : BitVec 8 := 0x0A
abbrev cProtection : BitVec 8 := 0x0B
abbrev cPageFault : BitVec 8 := 0x0C
abbrev cEcc : BitVec 8 := 0x0D
abbrev cAlign : BitVec 8 := 0x0E
abbrev cCaskSealed : BitVec 8 := 0x0F
abbrev cWeightStarved : BitVec 8 := 0x10
abbrev cWeightLost : BitVec 8 := 0x11
abbrev cQuiescent : BitVec 8 := 0x12
abbrev cPreempt : BitVec 8 := 0x13
abbrev cCordonPeer : BitVec 8 := 0x14
abbrev cFuture : BitVec 8 := 0x15
abbrev cQueue : BitVec 8 := 0x16
abbrev cStream : BitVec 8 := 0x17

/-- TVAL of ILLEGAL_INSTRUCTION (03 Table 3-3). -/
def illegalTval (reason : BitVec 3) (word1 : Bool) (insn : W32) : W64 :=
  (0#28 ++ reason ++ (if word1 then 1#1 else 0#1) ++ insn : BitVec 64)
/-- TVAL of PRIVILEGED (03 R75). -/
def privilegedTval (word1 : Bool) (insn : W32) : W64 :=
  (0#31 ++ (if word1 then 1#1 else 0#1) ++ insn : BitVec 64)
/-- TVAL of STALL_SHORT (03 Table 3-6). -/
def stallTval (word1 : Bool) (short : Nat) (f : RFile) (r : Nat) : W64 :=
  (0#51 ++ (if word1 then 1#1 else 0#1) ++ BitVec.ofNat 4 short
    ++ (match f with | .s => 0#3 | .v => 1#3 | .p => 2#3) ++ BitVec.ofNat 5 r : BitVec 64)
/-- TVAL of FUTURE (12 R298). -/
def futureTval (reason : BitVec 8) (x : W64) : W64 := (reason ++ x.extractLsb' 0 56 : BitVec 64)
/-- TCAUSE (06 Table 6-5), outside a cordon. -/
def mkTcause (code : BitVec 8) (async : Bool) (ppl : BitVec 2) : W64 :=
  (0#32 ++ 0#8 ++ 0#1 ++ (if async then 1#1 else 0#1) ++ ppl ++ 0#12 ++ code : BitVec 64)

/-! ## Taking a trap and returning from one -/

/-- The interlocked results with a tag arrive, all with one value. -/
def Thread.arriveTag (t : Thread) (tag : Nat) (x : W512) : Thread :=
  { t with pend := t.pend.map (fun (e : Pending) =>
      if e.tag = tag ∧ e.visible = none then { e with val := x, visible := some e.issued } else e) }

/-- The divider's result reaches its register, and its flags FLAGS (04 R84, 05 R130). -/
def Thread.endDiv (t : Thread) : Thread :=
  match t.div with
  | none => t
  | some d => { t.arriveTag d.tag (d.val.setWidth 512) with flags := t.flags ||| d.flags, div := none }

/-- The flags of every issued float word are set (05 R110). -/
def Thread.endFlags (t : Thread) : Thread :=
  { t with flags := t.pendFlags.foldl (fun f (e : PendFlags) => f ||| e.bits) t.flags, pendFlags := [] }

/-- The fixed results and the divide complete, and their flags are set (03 R61, 04 R84, 05 R110). -/
def Thread.finish (t : Thread) : Thread := t.endFlags.endDiv.complete

/-- The cycle in which the divider's result arrives, if it is outstanding: no earlier than this do the first slot of a trap
routine issue, a continuation write and an end happen (04 R84). -/
def Thread.divDue (t : Thread) : Nat := (t.div.map (·.due)).getD 0

/-- A divide of an earlier slot is outstanding. One that issues in the slot itself, as the partner of a pair, lands with the slot's
word (03 R50, R61), and the core goes on no earlier than its result arrives. -/
def Core.dividing (c : Core) : Bool := match c.t.div with | some d => decide (d.issued < c.iss.nom) | none => false

/-- TakeTrap (06 R140) at one core. `quiesce` is the entry that a region event takes. A synchronous trap at machine
level stops the core with a machine check. -/
def Core.takeTrap (c : Core) (code : BitVec 8) (tval : W64) (async : Bool) (resume : W64) (quiesce : W64) : Core :=
  let t := c.t.finish
  let c := { c with t := { t with nom := 0 }, tpc := resume &&& 0x00FF_FFFF_FFFF_FFFF,
                    tcause := mkTcause code async c.pl, tval := tval, slot := .trapped, txn := .none,
                    fpark := none, silent := none, gpark := none, listed := none, ready := max c.ready c.t.divDue }
  if code = cQuiescent ∨ code = cWeightLost then { c with pl := 1, run := .running, t := { c.t with pc := quiesce } }
  else if c.pl = 0 then { c with pl := 1, run := .running, t := { c.t with pc := c.tvec } }
  else if c.pl = 1 then { c with pl := 2, run := .running, t := { c.t with pc := c.mvec } }
  else { c with run := .stopped }

/-- An earlier word of the thread can still fault, its packet has not left, or its result is still on its way to its register or its stream (06 R141). -/
def Core.uncleared (c : Core) : Bool :=
  c.mem.any (fun a => !a.cleared) || !c.pushes.isEmpty || !c.later.isEmpty || c.t.pend.any (fun e => e.visible.isNone && decide (c.t.div.map (·.tag) ≠ some e.tag))

/-- The trap of the word being issued (06 R140, R141): it is taken once every earlier word has taken its whole effect.
TPC is the word's PC; USER_TRAP records the resume slot (06 R151), and its word counts in INSTRET (03 R66). -/
def State.trapNow (s : State) (code : BitVec 8) (tval : W64) : State :=
  if s.cur.uncleared then s.hold
  else s.modCur (fun c =>
    if code = cUserTrap then { c with instret := c.instret + 1 }.takeTrap code tval false c.iss.next 0
    else c.takeTrap code tval false c.iss.pc 0)

/-- TCAUSE.PPL (06 Table 6-5). -/
def Core.ppl (c : Core) : BitVec 2 := c.tcause.extractLsb' 20 2

/-- The return from a trap (06 R152): level, PC and nominal slot time. -/
def Core.trapReturn (c : Core) : Core :=
  { c with pl := c.ppl, t := { c.t.finish with pc := c.tpc, nom := 0 }, ready := max c.ready c.t.divDue }

/-- Memory as a fetch sees it that becomes coherent with stores now (03 R55). -/
def State.codeView (s : State) : CodeView := { mem := s.mem, enc := s.enc, cache := s.cache }
/-- Fetch becomes coherent with every store performed before: at a start, a resume and `tret` (03 R55). -/
def Core.coherent (c : Core) (v : CodeView) : Core := { c with icache := [], code := some v }

end Sys2Proof.Machine
end

