-- ==== Sys2Proof/WellFormed.lean ====
section
/-!
DEFINITION. The field values that an instruction accepts, as far as the word alone decides them. A word that breaks one
of these checks decodes, and takes ILLEGAL_INSTRUCTION, reason 6, when it issues.
-/
namespace Sys2Proof

/-- The numbers of the CSR map (06 Table 6-1). -/
def csrKnown (c : BitVec 10) : Bool :=
  decide (c.toNat ≤ 0x14) || (decide (0x100 ≤ c.toNat) && decide (c.toNat ≤ 0x106)) || decide (c = 0x200)
    || decide (c = 0x201)

/-- A load's ord (03 R69). -/
def loadOrd (o : Ord) : Bool := decide (o = .plain) || decide (o = .acq)
/-- A store's ord (03 R69). -/
def storeOrd (o : Ord) : Bool := decide (o = .plain) || decide (o = .rel)
/-- The rounding field of a float word other than `fcvt.ff` (05 R115). -/
def roundOk (r : BitVec 3) : Bool := decide (r ≠ 7) && decide (r ≠ 6)
/-- The significand width of a precision (05 Table 5-1). -/
def sigWidth : Prec → Nat
  | .f64 => 52 | .f32 => 23 | .bf16 => 7 | .f16 => 10
/-- A register that an fmask bit can mark (12 R265). -/
def markable (r : BitVec 5) : Bool := decide (4 ≤ r.toNat) && decide (r.toNat ≤ 19)

/-- The fields of a word have accepted values (03 R69, R71; 04 R79; 05 R115, R128; 06 R133, R163; 07 R191, R192;
08 Table 8-10; 09 Table 9-13; 12 Table 12-11; 13 R319; 15 R358; 17 R383). -/
def fieldsOk (i : Instr) : Bool :=
  match i with
  | .cmpp _ _ _ m c => decide (m ≠ 3) && decide (c.toNat < 6)
  | .fadd _ _ _ _ r | .fsub _ _ _ _ r | .fmul _ _ _ _ r | .fdiv _ _ _ _ r | .fma _ _ _ _ r | .fms _ _ _ _ r
  | .fnma _ _ _ _ r | .fnms _ _ _ _ r => roundOk r
  | .fsqrt _ _ _ r | .fcvtIf _ _ _ r | .fcvtFi _ _ _ r => roundOk r
  | .fcvtFf _ _ _ e p r => decide (r ≠ 7) && (decide (r ≠ 6) || decide (sigWidth p < sigWidth e))
  | .csrr _ c | .csrw _ c | .csrx _ _ c => csrKnown c
  | .ldB _ _ _ o _ _ | .ldBz _ _ _ o _ _ | .ldH _ _ _ o _ _ | .ldHz _ _ _ o _ _ | .ldW _ _ _ o _ _
  | .ldWz _ _ _ o _ _ | .ldD _ _ _ o _ _ | .waita _ _ _ o _ _ | .vld _ _ _ o _ _ => loadOrd o
  | .stB _ _ _ o _ _ | .stH _ _ _ o _ _ | .stW _ _ _ o _ _ | .stD _ _ _ o _ _ | .vst _ _ _ o _ _ => storeOrd o
  | .pref _ _ o _ _ => decide (o = .plain)
  | .cas d _ _ _ _ _ => decide (d ≠ 31)
  | .hnew h _ => decide (h ≠ 0)
  | .hfork h g _ => decide (h ≠ 0) && decide (h ≠ g)
  | .hfree h => decide (h ≠ 0)
  | .send _ _ p _ f | .qenq _ _ p _ f => decide (p.toNat ≤ 26) && (decide (f = 0) || markable p)
  | .mcst _ _ p _ f => decide (p.toNat ≤ 26) && decide (f = 0)
  | .ibpop d _ | .qdeq d _ _ | .qtry d _ _ => decide (d.toNat ≤ 25)
  | .qnew _ _ k => decide (4 ≤ k.toNat) && decide (k.toNat ≤ 20)
  | .rackb _ _ v | .bar _ _ v => decide (v ≠ 3)
  | .spawn d _ p _ _ => markable d && decide (p.toNat ≤ 26)
  | .fget _ a _ => decide (4 ≤ a.toNat) && decide (a.toNat ≤ 15)
  | .fref d _ m => decide (m ≠ 3) && (decide (m = 1) || markable d)
  | .cordon _ n => decide (1 ≤ n.toNat) && decide (n.toNat ≤ 16)
  | .ttpost d _ _ _ => markable d
  | .vmovp d a r _ => if r = 0 then decide (d.toNat < 8) else decide (a.toNat < 8)
  | .caskopen m | .caskseal m => decide (m ≠ 0)
  | .errinj _ _ k => decide (k.toNat ≤ 4)
  | .linkkey _ _ k => decide (k.toNat ≤ 18)
  | _ => true

/-- The instruction is one of the 227 words; the other rows have no encoding. -/
def isWord (i : Instr) : Bool :=
  match i with
  | .preemptTrap | .regionEventTrap | .yieldRequestArrival | .divideResult | .memoryReply | .storeAcknowledge
  | .remoteAccess | .migrationArrival | .forwardEntryExpire | .atomicForward | .atomicRetransmit | .parkWake
  | .parkTimeout | .waitaWake | .caskRefreshStart | .caskRefreshEnd | .handleTicket | .messageAccept
  | .sendCreditReturn | .inboxEntryStart | .spillRetry | .startAccept | .sliceQueueAccept | .mcstdone | .drawRequest
  | .drawGrant | .weightReturn | .quiescenceDeadline | .popRequest | .popServe | .popWithdraw | .governorEvaluate
  | .trigger | .quantumEnd | .reclaimMark | .frameReturn | .streamFetch | .copyValidate | .copyChunk | .copydone
  | .tileTaskIssue | .tiledone | .tileTaskAbort | .heldMessageRelease | .gatewayTimeout | .keyMarkerAccept | .keydue
  | .keyExhausted | .flitAuthFail | .reductionCombine | .reductionAbort | .redcfgWrite | .deviceRegisterWrite
  | .lcstateWrite | .isolateWrite | .supergroupRepair | .hostRead | .hostWrite | .scrubLine | .coldReset
  | .warmReset | .supergroupReset | .clockStepDown | .illegalInstruction | .fetchFault | .softError | .fabricAccess
  | .memberRegistration | .coolantBelowLimit => false
  | _ => true

/-- A well-formed instruction word: it has an encoding and its fields have accepted values. -/
def wellFormed (i : Instr) : Bool := isWord i && fieldsOk i

end Sys2Proof
end

