-- ==== Sys2Proof/Machine/Operands.lean ====
section
/-!
DEFINITION. What the issue stage knows of each word before it runs: its level, the registers it reads and writes, the
values its fields may have, and the checks of 03 Table 3-11 from step 4 to step 6 with the interlock of 03 R57.
-/
namespace Sys2Proof.Machine

/-- The level that a word needs (03 Tables 3-9, 3-10): 0 user, 1 supervisor, 2 machine. -/
def levelOf (i : Instr) : BitVec 2 :=
  match i with
  | .tret | .caskopen _ | .caskseal _ | .idle | .plbw _ _ _ | .plbinv _ _ _ | .preempt _ _ _ | .ctxsave _ _
  | .ctxload _ _ | .wvint _ | .errinj _ _ _ | .kzero _ _ | .scrub _ _ _ _ | .assign _ _ _ | .release _ => 1
  | .kload _ _ _ | .linkkey _ _ _ => 2
  | _ => 0

/-- A register named by a word. -/
abbrev RName := RFile × Nat
def rS (r : BitVec 5) : RName := (.s, r.toNat)
def rV (r : BitVec 5) : RName := (.v, r.toNat)
def rP (r : BitVec 3) : RName := (.p, r.toNat)
/-- `n` scalar registers from `r` on. -/
def rSs (r : BitVec 5) (n : Nat) : List RName := (List.range n).map (fun k => (RFile.s, r.toNat + k))

/-- The registers that a word reads, its source fields from the highest bit down (03 R63). -/
def sourcesOf (i : Instr) : List RName :=
  match i with
  | .add _ a b | .sub _ a b | .mul _ a b | .mulh _ a b | .mulhu _ a b | .div _ a b | .divu _ a b | .rem _ a b
  | .remu _ a b | .and _ a b | .or _ a b | .xor _ a b | .andn _ a b | .shl _ a b | .shr _ a b | .sra _ a b
  | .rot _ a b | .min _ a b | .max _ a b | .minu _ a b | .maxu _ a b | .cmpEq _ a b | .cmpNe _ a b | .cmpLt _ a b
  | .cmpLtu _ a b | .cmpLe _ a b | .cmpLeu _ a b | .addsh _ a b _ | .bfx _ a b _ => [rS a, rS b]
  | .addi _ a _ | .andi _ a _ | .ori _ a _ | .xori _ a _ | .shli _ a _ | .shri _ a _ | .srai _ a _ | .roti _ a _
  | .clz _ a | .ctz _ a | .popc _ a => [rS a]
  | .sel _ a b p => [rS a, rS b, rP p]
  | .cmpp q a b m _ => (if m = 0 then [] else [rP q]) ++ [rS a, rS b]
  | .movs d _ => [rS d]
  | .bfi d a b => [rS d, rS a, rS b]
  | .fadd _ a b _ _ | .fsub _ a b _ _ | .fmul _ a b _ _ | .fdiv _ a b _ _ => [rS a, rS b]
  | .fmin _ a b _ | .fmax _ a b _ | .fcmp _ a b _ | .fsgnj _ a b _ | .fsgnn _ a b _ | .fsgnx _ a b _
  | .fmvx _ a b _ => [rS a, rS b]
  | .fsqrt _ a _ _ | .fcvtIf _ a _ _ | .fcvtFi _ a _ _ | .fclass _ a _ | .fcvtFf _ a _ _ _ _ => [rS a]
  | .fma d a b _ _ | .fms d a b _ _ | .fnma d a b _ _ | .fnms d a b _ _ => [rS d, rS a, rS b]
  | .vadd _ a b p _ | .vsub _ a b p _ | .vmul _ a b p _ | .vmin _ a b p _ | .vmax _ a b p _ | .vand _ a b p _
  | .vor _ a b p _ | .vxor _ a b p _ | .vandn _ a b p _ | .vshl _ a b p _ | .vshr _ a b p _ | .vsra _ a b p _
  | .vceq _ a b p _ | .vcne _ a b p _ | .vclt _ a b p _ | .vcle _ a b p _ | .vsel _ a b p _ | .vperm _ a b p _
  | .vsat _ a b p _ => [rV a, rV b, rP p]
  | .vfma d a b p _ | .vfms d a b p _ | .vfnma d a b p _ | .vdot4 d a b p _ => [rV d, rV a, rV b, rP p]
  | .vrcp _ a p _ | .vrsqrt _ a p _ | .vexp2 _ a p _ | .vabs _ a p _ | .vneg _ a p _ | .vshli _ a _ p _
  | .vshri _ a _ p _ | .vsrai _ a _ p _ | .vredAdd _ a p _ | .vredMax _ a p _ | .vredMin _ a p _ | .vredOr _ a p _
  | .vcvt _ a _ _ p _ => [rV a, rP p]
  | .vbcast _ a p _ => [rS a, rP p]
  | .vext _ a b _ => [rV a, rS b]
  | .vins d a b _ => [rV d, rS a, rS b]
  | .vcvtb _ a _ _ => [rV a]
  | .vpand _ a b | .vpor _ a b => [rP a, rP b]
  | .vpnot _ a => [rP a]
  | .vpopc _ a p _ | .viota _ a p _ => [rP a, rP p]
  | .vmovp _ a r _ => if r = 0 then [rV a] else [rP (a.setWidth 3)]
  | .brEq a b _ | .brNe a b _ | .brLt a b _ | .brLtu a b _ | .brGe a b _ | .brGeu a b _ => [rS a, rS b]
  | .brp n _ _ => [rP n]
  | .jr _ a _ => [rS a]
  | .csrw a _ | .csrx _ a _ => [rS a]
  | .ldB _ b _ _ _ _ | .ldBz _ b _ _ _ _ | .ldH _ b _ _ _ _ | .ldHz _ b _ _ _ _ | .ldW _ b _ _ _ _
  | .ldWz _ b _ _ _ _ | .ldD _ b _ _ _ _ | .vld _ b _ _ _ _ | .pref b _ _ _ _ => [rS b]
  | .ldoB _ b _ | .ldoBz _ b _ | .ldoH _ b _ | .ldoHz _ b _ | .ldoW _ b _ | .ldoWz _ b _ | .ldoD _ b _ => [rS b]
  | .stB d b _ _ _ _ | .stH d b _ _ _ _ | .stW d b _ _ _ _ | .stD d b _ _ _ _ | .waita d b _ _ _ _ => [rS d, rS b]
  | .stoB d b _ | .stoH d b _ | .stoW d b _ | .stoD d b _ => [rS d, rS b]
  | .amoAdd d b _ _ _ _ | .amoAnd d b _ _ _ _ | .amoOr d b _ _ _ _ | .amoXor d b _ _ _ _ | .amoMax d b _ _ _ _
  | .amoMin d b _ _ _ _ | .amoMaxu d b _ _ _ _ | .amoMinu d b _ _ _ _ | .amoSwap d b _ _ _ _ => [rS d, rS b]
  | .cas d b _ _ _ _ => rSs d 2 ++ [rS b]
  | .vst d b _ _ _ _ => [rV d, rS b]
  | .vgath _ a b p _ => [rV a, rS b, rP p]
  | .vscat d a b p _ => [rV d, rV a, rS b, rP p]
  | .vamo d _ b p _ => [rV d, rS b, rP p]
  | .genset _ a _ | .migr _ a _ | .wdraw _ a | .wret _ a | .waudit _ a | .qwatch _ a _ _ | .qnew _ a _ | .qdeq _ a _
  | .qtry _ a _ | .qfree _ a | .rackb _ a _ | .bar _ a _ | .fget _ a _ | .fref _ a _ | .fdrop a | .fpoll _ a
  | .sbind _ a _ | .vsave _ a | .vrest _ a | .plbinv _ a _ | .preempt _ a _ | .kload _ a _ | .linkkey _ a _ => [rS a]
  | .send d a p _ _ | .qenq d a p _ _ | .mcst d a p _ _ | .spawn d a p _ _ => [rS d, rS a] ++ rSs p 6
  | .fset _ a b | .copys a b _ | .copyx a b _ _ | .ttpost _ a b _ | .scrub _ a b _ | .assign _ a b => [rS a, rS b]
  | .copy d a b _ | .plbw d a b => [rS d, rS a, rS b]
  | .ctxsave d a | .ctxload d a | .errinj d a _ => [rS d, rS a]
  | .wvint d | .release d => [rS d]
  | _ => []

/-- A destination that 03 R51 compares: a register of one of the four files. -/
inductive DName where
  | reg (f : RFile) (n : Nat)
  | h (n : Nat)
  deriving DecidableEq, Repr

def dS (d : BitVec 5) : List DName := [.reg .s d.toNat]
def dP7 : List DName := [.reg .p 7]

/-- The explicit destinations of a word (03 R51; 06 R150; 07 R189; 09 R242; 12 R289; 13 R305; 15 R358; 17 R383). -/
def destsOf (i : Instr) : List DName :=
  match i with
  | .add d _ _ | .sub d _ _ | .mul d _ _ | .mulh d _ _ | .mulhu d _ _ | .div d _ _ | .divu d _ _ | .rem d _ _
  | .remu d _ _ | .and d _ _ | .or d _ _ | .xor d _ _ | .andn d _ _ | .shl d _ _ | .shr d _ _ | .sra d _ _
  | .rot d _ _ | .min d _ _ | .max d _ _ | .minu d _ _ | .maxu d _ _ | .cmpEq d _ _ | .cmpNe d _ _ | .cmpLt d _ _
  | .cmpLtu d _ _ | .cmpLe d _ _ | .cmpLeu d _ _ | .addsh d _ _ _ | .bfx d _ _ _ | .bfi d _ _ => dS d
  | .addi d _ _ | .andi d _ _ | .ori d _ _ | .xori d _ _ | .shli d _ _ | .shri d _ _ | .srai d _ _ | .roti d _ _
  | .clz d _ | .ctz d _ | .popc d _ | .sel d _ _ _ | .movi d _ | .movs d _ => dS d
  | .cmpp q _ _ _ _ => [.reg .p q.toNat]
  | .fadd d _ _ _ _ | .fsub d _ _ _ _ | .fmul d _ _ _ _ | .fdiv d _ _ _ _ | .fma d _ _ _ _ | .fms d _ _ _ _
  | .fnma d _ _ _ _ | .fnms d _ _ _ _ | .fmin d _ _ _ | .fmax d _ _ _ | .fcmp d _ _ _ | .fsgnj d _ _ _
  | .fsgnn d _ _ _ | .fsgnx d _ _ _ | .fmvx d _ _ _ | .fsqrt d _ _ _ | .fcvtIf d _ _ _ | .fcvtFi d _ _ _
  | .fclass d _ _ | .fcvtFf d _ _ _ _ _ => dS d
  | .vext d _ _ _ | .vredAdd d _ _ _ | .vredMax d _ _ _ | .vredMin d _ _ _ | .vredOr d _ _ _ | .vpopc d _ _ _ => dS d
  | .vceq q _ _ _ _ | .vcne q _ _ _ _ | .vclt q _ _ _ _ | .vcle q _ _ _ _ => [.reg .p q.toNat]
  | .vpand d _ _ | .vpor d _ _ | .vpnot d _ => [.reg .p d.toNat]
  | .vmovp d _ r _ => if r = 0 then [.reg .p (d.setWidth 3).toNat] else [.reg .v d.toNat]
  | .vadd d _ _ _ _ | .vsub d _ _ _ _ | .vmul d _ _ _ _ | .vfma d _ _ _ _ | .vfms d _ _ _ _ | .vfnma d _ _ _ _
  | .vmin d _ _ _ _ | .vmax d _ _ _ _ | .vand d _ _ _ _ | .vor d _ _ _ _ | .vxor d _ _ _ _ | .vandn d _ _ _ _
  | .vshl d _ _ _ _ | .vshr d _ _ _ _ | .vsra d _ _ _ _ | .vshli d _ _ _ _ | .vshri d _ _ _ _ | .vsrai d _ _ _ _
  | .vsel d _ _ _ _ | .vperm d _ _ _ _ | .vsat d _ _ _ _ | .vdot4 d _ _ _ _ => [.reg .v d.toNat]
  | .vrcp d _ _ _ | .vrsqrt d _ _ _ | .vexp2 d _ _ _ | .vabs d _ _ _ | .vneg d _ _ _ | .vbcast d _ _ _
  | .viota d _ _ _ | .vins d _ _ _ => [.reg .v d.toNat]
  | .vcvt d _ _ _ _ _ => [.reg .v d.toNat]
  | .vcvtb d _ _ _ => [.reg .v d.toNat]
  | .jal _ => [.reg .s 1]
  | .jr d _ _ | .csrr d _ | .csrx d _ _ => dS d
  | .ldB d _ _ _ _ _ | .ldBz d _ _ _ _ _ | .ldH d _ _ _ _ _ | .ldHz d _ _ _ _ _ | .ldW d _ _ _ _ _
  | .ldWz d _ _ _ _ _ | .ldD d _ _ _ _ _ | .waita d _ _ _ _ _ => dS d
  | .ldoB d _ _ | .ldoBz d _ _ | .ldoH d _ _ | .ldoHz d _ _ | .ldoW d _ _ | .ldoWz d _ _ | .ldoD d _ _ => dS d
  | .amoAdd d _ _ _ _ _ | .amoAnd d _ _ _ _ _ | .amoOr d _ _ _ _ _ | .amoXor d _ _ _ _ _ | .amoMax d _ _ _ _ _
  | .amoMin d _ _ _ _ _ | .amoMaxu d _ _ _ _ _ | .amoMinu d _ _ _ _ _ | .amoSwap d _ _ _ _ _
  | .cas d _ _ _ _ _ => dS d ++ dP7
  | .hnew h _ | .hfork h _ _ => .h h.toNat :: dP7
  | .genset d _ _ | .migr d _ _ | .wdraw d _ | .wret d _ | .qwatch d _ _ _ | .qfree d _ | .rackb d _ _
  | .bar d _ _ | .ibpeek d => dS d
  | .qenq d _ _ _ _ => dS d
  | .waudit d _ | .qnew d _ _ => dS d ++ dP7
  | .ibpop d h => (List.range 7).map (fun k => .reg .s (d.toNat + k)) ++ (if h = 0 then [] else [.h h.toNat])
  | .qdeq d _ h => (List.range 7).map (fun k => .reg .s (d.toNat + k)) ++ (if h = 0 then [] else [.h h.toNat])
  | .qtry d _ h => (List.range 7).map (fun k => .reg .s (d.toNat + k)) ++ (if h = 0 then [] else [.h h.toNat]) ++ dP7
  | .spawn d _ _ _ _ => dS d ++ dP7
  | .fget d _ _ | .fpoll d _ => dS d ++ dP7
  | .fset d _ _ | .fref d _ _ | .cordon d _ => dS d
  | .vld d _ _ _ _ _ | .vgath d _ _ _ _ | .vamo d _ _ _ _ => [.reg .v d.toNat]
  | .sfree d _ | .vsave d _ | .vrest d _ => dS d
  | .ttpost d _ _ _ => dS d ++ dP7
  | .caskopen _ | .caskseal _ => dP7
  | .plbinv d _ _ | .preempt d _ _ | .ctxsave d _ | .ctxload d _ | .wvint d | .errinj d _ _ | .kload d _ _
  | .kzero d _ | .scrub d _ _ _ | .assign d _ _ | .release d | .linkkey d _ _ => dS d
  | _ => []

/-- The control words (02 R40, 03 R50). -/
def isControl (i : Instr) : Bool :=
  match i with
  | .brEq _ _ _ | .brNe _ _ _ | .brLt _ _ _ | .brLtu _ _ _ | .brGe _ _ _ | .brGeu _ _ _ | .brp _ _ _ | .jmp _ | .jal _
  | .jr _ _ _ | .trap _ | .tret | .endH | .fget _ _ _ | .sync _ _ | .suspend _ _ _ | .yield _ _ => true
  | _ => false

/-- The TYPE of VTT slot `t` (13 Table 13-1). -/
def vttType (vtt : W64) (t : BitVec 2) : BitVec 4 := vtt.extractLsb' (8 * t.toNat) 4
/-- The class of a type (13 Table 13-2): integer, float, or narrow float. -/
def isI (ty : BitVec 4) : Bool := decide (ty.toNat ≤ 3)
def isF (ty : BitVec 4) : Bool := decide (4 ≤ ty.toNat) && decide (ty.toNat ≤ 7)
/-- The lane width of a type in bytes (13 Table 13-2). -/
def laneBytes (ty : BitVec 4) : Nat :=
  if ty = 0 then 1 else if ty = 1 then 2 else if ty = 2 then 4 else if ty = 3 then 8 else if ty = 4 then 2
  else if ty = 5 then 2 else if ty = 6 then 4 else if ty = 7 then 8 else 1

/-- The handle field names h0 or a register that holds a handle (08 R208). -/
def handleOk (c : Core) (h : BitVec 4) : Bool := decide (h = 0) || (c.rh h).isSome

/-- The field values of a word are accepted in this state; otherwise it takes ILLEGAL_INSTRUCTION, reason 6 (03 R69, R71;
08 R208; 09 R242; 12 R289; 13 R301; 15 R358). The part that the word alone decides is `fieldsOk` of WellFormed.lean. `hfork` of
an empty register takes reason 6 too, which 08 Table 8-10 does not list (log entry 52). -/
def stateOk (c : Core) (i : Instr) : Bool :=
  let ty (t : BitVec 2) := vttType c.t.vtt t
  match i with
  | .ldB _ _ h _ _ _ | .ldBz _ _ h _ _ _ | .ldH _ _ h _ _ _ | .ldHz _ _ h _ _ _ | .ldW _ _ h _ _ _
  | .ldWz _ _ h _ _ _ | .ldD _ _ h _ _ _ | .stB _ _ h _ _ _ | .stH _ _ h _ _ _ | .stW _ _ h _ _ _
  | .stD _ _ h _ _ _ | .amoAdd _ _ h _ _ _ | .amoAnd _ _ h _ _ _ | .amoOr _ _ h _ _ _ | .amoXor _ _ h _ _ _
  | .amoMax _ _ h _ _ _ | .amoMin _ _ h _ _ _ | .amoMaxu _ _ h _ _ _ | .amoMinu _ _ h _ _ _
  | .amoSwap _ _ h _ _ _ | .cas _ _ h _ _ _ | .waita _ _ h _ _ _ | .vld _ _ h _ _ _ | .vst _ _ h _ _ _ => handleOk c h
  | .pref _ h _ _ _ => handleOk c h
  | .hnew h _ => (c.rh h).isNone
  | .hfork h g _ => (c.rh h).isNone && handleOk c g
  | .hjoin h g _ => handleOk c h && handleOk c g
  | .hfree h => (c.rh h).isSome
  | .hwait h _ => handleOk c h
  | .send _ _ _ h _ | .qenq _ _ _ h _ | .mcst _ _ _ h _ => handleOk c h
  | .ibpop _ h | .qdeq _ _ h | .qtry _ _ h => decide (h = 0) || (c.rh h).isNone
  | .spawn _ _ _ h _ => handleOk c h && decide (c.ctxid ≠ 0)
  | .sync _ _ => decide (c.ctxid ≠ 0)
  | .suspend _ _ _ | .yield _ _ => decide (c.ctxid ≠ 0) && !(decide (c.cordsz.toNat > 1) && decide (c.pl = 0))
  | .cordon _ _ => decide (c.cordsz.toNat ≤ 1) && decide (c.pl = 0)
  | .copy _ _ _ h | .copys _ _ h | .copyx _ _ _ h => handleOk c h
  | .ttpost _ _ _ h => handleOk c h && decide (c.ctxid ≠ 0)
  | .vadd _ _ _ _ t | .vsub _ _ _ _ t | .vmul _ _ _ _ t | .vfma _ _ _ _ t | .vfms _ _ _ _ t | .vfnma _ _ _ _ t
  | .vmin _ _ _ _ t | .vmax _ _ _ _ t | .vceq _ _ _ _ t | .vcne _ _ _ _ t | .vclt _ _ _ _ t
  | .vcle _ _ _ _ t => isI (ty t) || isF (ty t)
  | .vabs _ _ _ t | .vneg _ _ _ t | .vredAdd _ _ _ t | .vredMax _ _ _ t | .vredMin _ _ _ t => isI (ty t) || isF (ty t)
  | .vrcp _ _ _ t | .vrsqrt _ _ _ t | .vexp2 _ _ _ t => isF (ty t)
  | .vshl _ _ _ _ t | .vshr _ _ _ _ t | .vsra _ _ _ _ t | .vshli _ _ _ _ t | .vshri _ _ _ _ t | .vsrai _ _ _ _ t
  | .vsat _ _ _ _ t | .vamo _ _ _ _ t => isI (ty t)
  | .viota _ _ _ t => isI (ty t)
  | .vdot4 _ _ _ _ t => decide (ty t = 2)
  | .vcvt _ _ h e _ t => !(decide (h = 1) && decide (laneBytes (ty t) = laneBytes (ty e)))
  | .vcvtb _ _ _ t => decide (ty t = 4) || decide (ty t = 6)
  | _ => true

/-- A source that is bound to a stream is popped and never read early (13 R325). -/
def Core.bound (c : Core) (r : RName) : Bool :=
  decide (r.1 = .v) && decide (28 ≤ r.2) && (if h : r.2 - 28 < 4 then (c.t.streams[r.2 - 28]).isSome else false)

/-- The first source that is early, with its latest writer's missing cycles (03 R63). -/
def Core.early (c : Core) : List RName → Option (RName × Nat)
  | [] => none
  | r :: rs =>
    if c.bound r then c.early rs
    else match (c.t.writer r.1 r.2 c.iss.nom).bind (·.visible) with
      | some v => if c.iss.nom < v then some (r, v - c.iss.nom) else c.early rs
      | none => c.early rs

/-- A source has not arrived (03 R57). -/
def Core.awaits (c : Core) (rs : List RName) : Bool :=
  rs.any (fun r => !c.bound r &&
    (match c.t.writer r.1 r.2 c.iss.nom with | some e => e.visible.isNone | none => false))

/-- Steps 4 to 6 of Table 3-11 for the word being issued (03 R76): reason 6, PRIVILEGED, STALL_SHORT. -/
def Core.issueCheck (c : Core) (i : Instr) : Option (BitVec 8 × W64) :=
  if !(fieldsOk i && stateOk c i) then some (cIllegal, illegalTval 6 c.iss.word1 c.iss.insn)
  else if c.pl < levelOf i then some (cPrivileged, privilegedTval c.iss.word1 c.iss.insn)
  else if c.check then
    match c.early (sourcesOf i) with
    | some ((f, r), n) => some (cStallShort, stallTval c.iss.word1 n f r)
    | none => none
  else none

/-- A marked register that the word would write (12 R266): its value, for FUTURE. -/
def Core.markedDest (c : Core) (i : Instr) : Option W64 :=
  let skip : Option Nat :=
    match i with
    | .fget d a x => if x = 1 ∧ d = a then some d.toNat else none
    | .fref d a m => if m = 2 ∧ d = a then some d.toNat else none
    | _ => none
  ((destsOf i).findSome? (fun d =>
    match d with
    | .reg .s n => if 4 ≤ n ∧ n < 20 ∧ c.t.fmask.getLsbD (n - 4) = true ∧ skip ≠ some n then some n else none
    | _ => none)).map (fun n => c.rs (BitVec.ofNat 5 n))

/-- The trap of a word that would write a marked register (12 R266): the units it names come first (03 Table 3-11). -/
def markTrap (x : W64) (r : Res) : BitVec 8 × W64 :=
  match r with
  | .trap code tval => if code = cUnitAbsent then (code, tval) else (cFuture, futureTval 0 x)
  | _ => (cFuture, futureTval 0 x)

/-- Runs a word: the issue checks, the interlock, the marked destinations (12 R266), then its own effect. The slot
advances where it takes effect, stays where it waits, and traps precisely where it traps (03 R52, R76). -/
def runWord (i : Instr) (s : State) (body : State → Res) : Host.Outcome State Fault Refusal :=
  match s.cur.issueCheck i with
  | some (code, tval) => .next (s.trapNow code tval)
  | none =>
    if s.cur.awaits (sourcesOf i) then .next s.hold
    else match s.cur.markedDest i with
      | some x => .next (s.trapNow (markTrap x (body s.retire)).1 (markTrap x (body s.retire)).2)
      | none =>
        match body s.retire with
        | .ok s' => .next s'
        | .trap code tval => .next (s.trapNow code tval)
        | .wait s' => .next (s'.hold.untrained s)

end Sys2Proof.Machine
end

