-- ==== Sys2Proof/Machine/Memory.lean ====
section
/-!
DEFINITION. The address map (01 R20, 07 R164), the protection check (07 R179), the table walk (07 R180, R181), the
cached lines (07 R175, R178, R402) and reading and writing bytes at their home.
-/
namespace Sys2Proof.Machine

/-! ## Keys and windows -/

/-- The key of a byte: the memory it lies in and its address there. Memories 0 to 5 are the LOC codes of Table 7-6. -/
def keyOf (space off : Nat) : Nat := space * 2 ^ 64 + off
def spaceOf (k : Nat) : Nat := k / 2 ^ 64
def offOf (k : Nat) : Nat := k % 2 ^ 64
/-- Scratchpads of the device, casks, scratchpads of other devices, and virtual addresses of paged or cask memory. -/
abbrev spSpad : Nat := 6
abbrev spCask : Nat := 7
abbrev spRemote : Nat := 8
abbrev spVirt : Nat := 15

/-- What an address falls into (01 Table 1-7). -/
inductive Window where
  | paged
  | spad (fmt dev core off : Nat)
  | gen (g off : Nat)
  | cask (die off : Nat)
  | regs (off : Nat)
  | none
  deriving DecidableEq, Repr

/-- The window of an address; the own-device alias names this device. -/
def State.window (s : State) (a : W64) : Window :=
  let n := a.toNat
  if n < 0x00F0_0000_0000_0000 then .paged
  else if n < 0x00F0_2000_0000_0000 then
    let x := n - 0x00F0_0000_0000_0000
    .spad (x / 2 ^ 42) (x / 2 ^ 28 % 2 ^ 14) (x / 2 ^ 16 % 2 ^ 12) (x % 2 ^ 16)
  else if 0x00F8_0000_0000_0000 ≤ n ∧ n < 0x00F8_0000_8000_0000 then
    let x := n - 0x00F8_0000_0000_0000
    .spad (x / 2 ^ 28) s.devid (x / 2 ^ 16 % 2 ^ 12) (x % 2 ^ 16)
  else if 0x00FC_0000_0000_0000 ≤ n ∧ n < 0x00FC_0800_0000_0000 then
    let x := n - 0x00FC_0000_0000_0000
    .gen (x / 2 ^ 40) (x % 2 ^ 40)
  else if 0x00FD_0000_0000_0000 ≤ n ∧ n < 0x00FD_0002_0000_0000 then
    let x := n - 0x00FD_0000_0000_0000
    .cask (x / 2 ^ 32) (x % 2 ^ 32)
  else if 0x00FE_0000_0000_0000 ≤ n ∧ n < 0x00FF_0000_0000_0000 then .regs (n - 0x00FE_0000_0000_0000)
  else .none

/-- The address names an absent unit (00 R4, 01 R21): a cask that is not there, or a core of an absent die. -/
def State.absentUnit (s : State) (a : W64) : Bool :=
  match s.window a with
  | .cask die off => !s.hasCask || (decide (die = 1) && !s.die1) || decide (0x8000_0000 ≤ off)
  | .spad _ dev core _ => decide (dev = s.devid) && decide (s.ncores ≤ core)
  | _ => false

/-! ## Protection (07 R179) -/

/-- A context, if it is live. -/
def State.ctx? (s : State) (id : Nat) : Option Ctx := FMap.get? s.ctxs id
/-- The context of the current core. -/
def State.curCtx? (s : State) : Option Ctx := if s.cur.ctxid = 0 then none else s.ctx? s.cur.ctxid.toNat
/-- The state with a context replaced. -/
def State.setCtx (s : State) (id : Nat) (c : Ctx) : State := { s with ctxs := FMap.put s.ctxs id c }

/-- An entry covers an address (06 R155). -/
def PlbEntry.covers (e : PlbEntry) (dom : Nat) (a : W64) : Bool :=
  let lo := e.base.toNat / 8192 * 8192
  decide (e.pages ≠ 0) && decide (e.domain.toNat = dom) && decide (lo ≤ a.toNat)
    && decide (a.toNat < lo + e.pages.toNat * 8192)

/-- The protection domain of the running context; domain 0 where a core has none. -/
def State.domain (s : State) (c : Core) : Nat :=
  ((s.ctx? c.ctxid.toNat).map (fun x => x.rcb.pdom.toNat)).getD 0

/-- The rights bits of 06 R155. -/
abbrev rRead : BitVec 6 := 1
abbrev rWrite : BitVec 6 := 2
abbrev rExec : BitVec 6 := 4
abbrev rGen : BitVec 6 := 8
abbrev rQueue : BitVec 6 := 16
abbrev rCask : BitVec 6 := 32

/-- The lowest valid entry of the domain that covers the address has the needed rights. -/
def State.permits (s : State) (c : Core) (a : W64) (need : BitVec 6) : Bool :=
  match c.plb.toList.find? (fun e => e.covers (s.domain c) a) with
  | some e => decide (e.rights &&& need = need)
  | none => false

/-! ## The checks of MemAccess at the core (07 R186) -/

/-- How an address is used (07 Table 7-1). -/
inductive Use where
  | load | store | atomic | waita
  | vload | vstore
  /-- the indivisible vector access of `vamo`: an atomic of 64 bytes -/
  | vatomic
  deriving DecidableEq, Repr

def Use.reads : Use → Bool
  | .load | .atomic | .waita | .vload | .vatomic => true
  | _ => false
def Use.writes : Use → Bool
  | .store | .atomic | .vstore | .vatomic => true
  | _ => false
def Use.vector : Use → Bool
  | .vload | .vstore => true
  | _ => false
def Use.atomicLike : Use → Bool
  | .atomic | .vatomic => true
  | _ => false

/-- The stored bytes of a vector access (07 Table 7-2, 13 R320). -/
def storedSize (fmt : Nat) : Nat :=
  if fmt = 0 ∨ fmt = 7 then 64 else if fmt = 3 ∨ fmt = 5 then 16 else 32

/-- FUNC, EFMT and SINK of a generator descriptor (07 Table 7-5). -/
def genFunc (d : BitVec 512) : Nat := (d.extractLsb' 0 8).toNat
def genSink (d : BitVec 512) : Bool := d.getLsbD 16

/-- A live generator descriptor of a core. -/
def Core.gen (c : Core) (g : Nat) : BitVec 512 := if h : g < 8 then c.t.gens[g] else 0

/-- A register of Table 17-1 named by an offset of the register window, with the level that may read it and the level
that may write it: 0 user, 1 supervisor, 2 machine, 3 none. TRIGGER is not reached by cores (17 R366). -/
def devReg (off : Nat) : Option (Nat × Nat) :=
  let o := off / 8 * 8
  if o = 0x1_0000_0100 then some (2, 3)
  else if o = 0x2_0000_0000 then some (1, 3)
  else if o = 0x2_0000_0008 then some (1, 3)
  else if o = 0x2_0000_0010 then some (2, 2)
  else if o = 0x3_0000_0000 then some (2, 2)
  else if o = 0x4_0000_0000 then some (2, 2)
  else if 0x5_0000_0000 ≤ o ∧ o < 0x5_0000_0000 + 8 * 19 then some (2, 3)
  else if 0x6_0000_0000 ≤ o ∧ o < 0x6_0000_0000 + 32 * 1024 then some (2, 2)
  else if o = 0x8000_0000_0000 then some (2, 2)
  else none

/-- The queue status window (09 R236). -/
def inQstat (off : Nat) : Bool := decide (0x1000_0000_0000 ≤ off) && decide (off < 0x1010_0000_0000)

/-- The checks of an access to the register window, in the order of 17 R366 (or 09 R236). -/
def State.regCheck (s : State) (c : Core) (use : Use) (a : W64) (n off : Nat) : Option (BitVec 8) :=
  if inQstat off then
    if a.toNat % n ≠ 0 then some cAlign
    else if n ≠ 8 ∨ use ≠ .load then some cWindowMisuse
    else if c.pl = 0 ∧ s.permits c a rQueue = false then some cProtection
    else none
  else match devReg off with
    | none => some cBadAddress
    | some (r, w) =>
      if a.toNat % n ≠ 0 then some cAlign
      else if n ≠ 8 ∨ (use ≠ .load ∧ use ≠ .store) then some cWindowMisuse
      else if c.pl.toNat < (if use = .load then r else w) then some cProtection
      else none

/-- The checks of MemAccess for a core's access, in order, before it leaves the core (07 R186, Table 7-1): the trap
cause, or none. `n` is the number of bytes that alignment goes by. -/
def State.accCheck (s : State) (c : Core) (use : Use) (a : W64) (n : Nat) : Option (BitVec 8) :=
  if s.absentUnit a then some cUnitAbsent
  else
    let needRW : BitVec 6 := (if use.reads then rRead else 0) ||| (if use.writes then rWrite else 0)
    let plb (need : BitVec 6) : Option (BitVec 8) := if c.pl = 0 ∧ s.permits c a need = false then some cProtection else none
    match s.window a with
    | .none => some cBadAddress
    | .paged =>
      if a.toNat % n ≠ 0 then some cAlign
      else if use = .waita then some cWindowMisuse
      else plb needRW
    | .spad fmt dev _ off =>
      if fmt = 7 ∧ 0x800 ≤ off then some cBadAddress
      else if a.toNat % n ≠ 0 then some cAlign
      else if use = .waita ∧ (fmt ≠ 0 ∨ dev ≠ s.devid) then some cWindowMisuse
      else if 1 ≤ fmt ∧ fmt ≤ 6 ∧ use.vector = false then some cWindowMisuse
      else if use = .vatomic ∧ fmt ≠ 0 ∧ fmt ≠ 7 then some cWindowMisuse
      else plb needRW
    | .gen g _ =>
      if a.toNat % n ≠ 0 then some cAlign
      else if use = .waita then some cWindowMisuse
      else if use.atomicLike then some cGenStore
      else if use.writes ∧ genSink (c.gen g) = false then some cGenStore
      else match plb rGen with
        | some x => some x
        | none => if use.reads ∧ genFunc (c.gen g) = 0 then some cBadAddress else none
    | .cask die _ =>
      if a.toNat % n ≠ 0 then some cAlign
      else if use = .waita ∨ use.atomicLike = true then some cWindowMisuse
      else match plb (needRW ||| rCask) with
        | some x => some x
        | none => if use.writes ∧ s.caskOpen.getLsbD die = false then some cCaskSealed else none
    | .regs off => s.regCheck c use a n off

/-! ## The table walk (07 R180) -/

/-- How a walk ends. -/
inductive Walk where
  /-- the key of the byte the address maps to -/
  | ok (key : Nat)
  /-- an invalid entry at this key -/
  | invalid (pte : Nat)
  | pageFault
  /-- memory of an absent die, or beyond what its die has (00 R4) -/
  | absent
  deriving DecidableEq, Repr

/-- The bytes of a memory of Table 7-6: 64 GiB for each HBM stack and 8 TiB for each CXL port, shared evenly by the dies
that are present (00 R1, 01 R18; log entry 49). -/
def State.memBytes (s : State) (loc : Nat) : Nat :=
  let dies := if s.die1 then 2 else 1
  if 4 ≤ loc then 2 ^ 64
  else if dies ≤ loc % 2 then 0
  else if loc < 2 then (s.caps.extractLsb' 16 8).toNat / dies * 2 ^ 36
  else (s.caps.extractLsb' 12 4).toNat / dies * 2 ^ 43

/-- The address of a physical line as the tweak of its cipher has it: its LOC in bits 63:60 (07 Table 7-6, log entry 14). -/
def lineTweak (pa : Nat) : Nat := spaceOf pa * 2 ^ 60 + offOf pa

/-- The 64 bytes of a physical line, and as they stand in memory: enciphered under the key that wrote them (17 R374). -/
def State.plainLine (s : State) (pa : Nat) : W512 :=
  BitVec.ofNat 512 (ofBytes (Memory.readAll s.mem ((List.range 64).map (pa + ·))))
def State.cipherLine (s : State) (pa : Nat) : W512 :=
  match FMap.get? s.enc (pa / 64) with
  | none => s.plainLine pa
  | some k => xtsEnc k (lineTweak pa) (s.plainLine pa)

/-- A live protected region has a key (17 R374). -/
def State.keyLive (s : State) (k : W512) : Bool :=
  s.ctxs.any (fun e => e.2.rcb.modef.getLsbD 0 && decide (FMap.getD s.keys (e.2.rcb.keyslot.toNat % 64) none = some k))
/-- A byte of memory as a page walk reads it there: the controller deciphers its line while the region whose key wrote it has that
key. -/
def State.storedByte (s : State) (k : Nat) : Byte :=
  match FMap.get? s.enc (k / 64) with
  | some key => if s.keyLive key then Memory.read s.mem k else (s.cipherLine (k / 64 * 64)).extractLsb' (8 * (k % 64)) 8
  | none => Memory.read s.mem k

/-- A byte of memory by its physical key, as a page walk sees it: a cached line with this key holds it, else the memory. -/
def State.physByte (s : State) (k : Nat) : Byte :=
  match s.cache.find? (fun e => decide (e.2.pa = k / 64 * 64)) with
  | some e => e.2.data.extractLsb' (8 * (k % 64)) 8
  | none => s.storedByte k

/-- A doubleword of memory by its physical key. -/
def State.phys8 (s : State) (k : Nat) : W64 :=
  BitVec.ofNat 64 (ofBytes ((List.range 8).map (fun i => s.physByte (k + i))))

/-- An entry that a walk goes on with: V = 1, and a LOC that is not handled like V = 0 (07 Table 7-6). -/
def pteValid (e : W64) : Bool := e.getLsbD 0 && decide ((e.extractLsb' 60 4).toNat ≤ 5)
/-- Which of the eight page-table entries of a line are valid. -/
def State.validBits (s : State) (line : Nat) : BitVec 8 :=
  BitVec.ofNat 8 ((List.range 8).foldl (fun m i => m + if pteValid (s.phys8 (line * 64 + 8 * i)) then 2 ^ i else 0) 0)

/-- What the monitor of a park keeps (07 R181): the entry's key, which entries of its line were valid when it was armed, and
the walker's slice that holds it. -/
def State.parkKey (s : State) (pte slice : Nat) : Nat := (pte * 256 + (s.validBits (pte / 64)).toNat) * 64 + slice % 64
/-- The entry, the line and the slice of a park. -/
def parkPte (key : Nat) : Nat := key / 64 / 256
def parkLine (key : Nat) : Nat := parkPte key / 64
def parkSlice (key : Nat) : Nat := key % 64
/-- A write has set V in the line since the park began. -/
def State.wakes (s : State) (key : Nat) : Bool := decide (s.validBits (parkLine key) &&& ~~~(BitVec.ofNat 8 (key / 64)) ≠ 0)

/-- The index bits and table size of a walk level (07 Table 7-7), and the size of the page it can map. -/
def walkIndex (level : Nat) (a : Nat) : Nat :=
  match level with
  | 1 => a / 2 ^ 39 % 2 ^ 17
  | 2 => a / 2 ^ 30 % 2 ^ 9
  | 3 => a / 2 ^ 21 % 2 ^ 9
  | _ => a / 2 ^ 13 % 2 ^ 8
def walkTable (level : Nat) : Nat :=
  match level with
  | 1 => 2 ^ 20 | 2 => 2 ^ 12 | 3 => 2 ^ 12 | _ => 2 ^ 11
def walkPage (level : Nat) : Nat :=
  match level with
  | 2 => 2 ^ 30 | 3 => 2 ^ 21 | _ => 2 ^ 13

/-- The walk from a table of a level on; `fuel` is the number of levels left. -/
def State.walkFrom (s : State) (a : Nat) : Nat → Nat → Nat → Nat → Walk
  | 0, _, _, _ => .pageFault
  | fuel + 1, level, loc, table =>
    let pte := keyOf loc (table / walkTable level * walkTable level + 8 * walkIndex level a)
    let e := s.phys8 pte
    let eloc := (e.extractLsb' 60 4).toNat
    let addr := (e.extractLsb' 11 45).toNat * 2 ^ 11
    if s.memBytes loc ≤ offOf pte then .absent
    else if pteValid e = false then .invalid pte
    else if e.getLsbD 1 then
      if level = 1 then .pageFault
      else
        let frame := addr / walkPage level * walkPage level + a % walkPage level
        if s.memBytes eloc ≤ frame then .absent else .ok (keyOf eloc frame)
    else if level = 4 ∨ eloc = 5 then .pageFault
    else s.walkFrom a fuel (level + 1) eloc addr

/-- The walk of a virtual address (07 R180). -/
def State.walk (s : State) (a : Nat) : Walk :=
  let loc := (s.walkroot.extractLsb' 60 4).toNat
  if 5 ≤ loc then .pageFault
  else s.walkFrom a 4 1 loc ((s.walkroot.extractLsb' 20 36).toNat * 2 ^ 20)

/-- The address names an absent unit, or is mapped to memory that is not there (00 R4, 01 R21). -/
def State.namesAbsent (s : State) (a : W64) : Bool :=
  s.absentUnit a || (match s.window a with | .paged => decide (s.walk a.toNat = .absent) | _ => false)

/-! ## Homes (07 R175, R402) -/

/-- The home slice of a line (07 R402). -/
def State.homeSlice (s : State) (a : Nat) : Nat :=
  let h := ((((((((a / 2 ^ 6) ^^^ (a / 2 ^ 12)) ^^^ (a / 2 ^ 18)) ^^^ (a / 2 ^ 24)) ^^^ (a / 2 ^ 30)) ^^^ (a / 2 ^ 36))
    ^^^ (a / 2 ^ 42)) ^^^ (a / 2 ^ 48)) % 64
  if s.die1 then h else h % 32

/-- The home core of a line for a context (07 R175). -/
def Ctx.homeCore (x : Ctx) (a : Nat) : Nat :=
  let h := (((a / 2 ^ 6) ^^^ (a / 2 ^ 19)) ^^^ (a / 2 ^ 32)) % 2 ^ 16
  x.cores.getD (h % x.cores.length) x.home

/-! ## Mesh positions (01 R10, R14) -/

/-- The mesh column and row of a supergroup, DIE × 32 + SG, on its die. -/
def meshX (sg : Nat) : Nat := sg % 32 % 8
def meshY (sg : Nat) : Nat := sg % 32 / 8
/-- The mesh hops between two supergroups of one die. -/
def meshHops (a b : Nat) : Nat :=
  (max (meshX a) (meshX b) - min (meshX a) (meshX b)) + (max (meshY a) (meshY b) - min (meshY a) (meshY b))

/-- The fixed load-to-use latency of a scratchpad of the same supergroup (01 Table 1-3); the other rows are no guarantees. -/
def spadLatency (core target : Nat) : Nat :=
  if core / 4 = target / 4 then 1 else if core / 16 = target / 16 then 3 else if core / 64 = target / 64 then 5 else 0

/-! ## Cached lines -/

/-- The key slot of the protected region that owns a virtual address (17 R374). -/
def State.slotOf (s : State) (va : Nat) : Option Nat :=
  (s.ctxs.find? (fun e => e.2.rcb.modef.getLsbD 0 && decide (e.2.pageBase.toNat ≤ va)
    && decide (va < e.2.pageBase.toNat + e.2.npages * 2 ^ 21))).map (fun e => e.2.rcb.keyslot.toNat % 64)

/-- The key slot of a line of memory, by its virtual and its physical address: only the HBM and CXL controllers encipher. -/
def State.lineSlot (s : State) (va pa : Nat) : Option Nat := if 4 ≤ spaceOf pa then none else s.slotOf va
/-- The key that a slot holds. -/
def State.keyAt (s : State) (slot : Nat) : Option W512 := FMap.getD s.keys slot none

/-- The uncorrectable doublewords of a physical line. -/
def State.badOf (s : State) (pa : Nat) : BitVec 8 :=
  BitVec.ofNat 8 ((List.range 8).foldl (fun n i => if s.bad.contains (pa + 8 * i) then n + 2 ^ i else n) 0)

/-- How a line is found. -/
inductive Look where
  | line (l : Line) (cached : Bool)
  | invalid (pte : Nat)
  | stop (code : BitVec 8)
  deriving DecidableEq, Repr

/-- A line as memory holds it at a physical key, deciphered with the slot of its owner; with none, as it is stored (17 R374, 18
R390). What the same key wrote reads as it was written. -/
def State.fromMemory (s : State) (va pa : Nat) : Look :=
  match s.lineSlot va pa with
  | none =>
    .line { pa := pa, data := s.cipherLine pa, dirty := false, hint := .default, l1 := none, bad := s.badOf pa } false
  | some n =>
    match s.keyAt n with
    | none => .stop cProtection
    | some k =>
      let data := if FMap.get? s.enc (pa / 64) = some k then s.plainLine pa else xtsDec k (lineTweak pa) (s.cipherLine pa)
      .line { pa := pa, data := data, dirty := false, hint := .default, l1 := none, bad := s.badOf pa } false

/-- The line of a virtual address: the cached one, else the one a walk finds (07 R180, R182). Cask lines are not
walked. -/
def State.look (s : State) (va : Nat) : Look :=
  match FMap.get? s.cache (va / 64) with
  | some l => .line l true
  | none =>
    let b := va / 64 * 64
    match s.window (BitVec.ofNat 64 b) with
    | .cask die off => s.fromMemory b (keyOf spCask (die * 2 ^ 32 + off))
    | _ =>
      match s.walk b with
      | .ok pa => s.fromMemory b pa
      | .invalid p => .invalid p
      | .pageFault => .stop cPageFault
      | .absent => .stop cUnitAbsent

/-- Writes the bytes of the line at virtual address `va` to its memory, enciphered where its owner is protected now.
Uncorrectable words stay so. -/
def State.writeLine (s : State) (va : Nat) (l : Line) : State :=
  let ks := (List.range 64).map (l.pa + ·)
  let bad := (List.range 8).filterMap (fun i => if l.bad.getLsbD i then some (l.pa + 8 * i) else none)
  { s with
    mem := Memory.writeAll s.mem ks (toBytes 64 l.data.toNat)
    enc := (match (s.lineSlot va l.pa).bind s.keyAt with | some k => FMap.put s.enc (l.pa / 64) k | none => FMap.erase s.enc (l.pa / 64))
    bad := s.bad.filter (fun k => !ks.contains k) ++ bad }

/-- A line leaves the caches, written back if it is dirty. A dirty line whose slot holds no key is not written. -/
def State.evict (s : State) (vl : Nat) : State :=
  match FMap.get? s.cache vl with
  | none => s
  | some l =>
    let s' := { s with cache := FMap.erase s.cache vl }
    let slot := s.lineSlot (vl * 64) l.pa
    if l.dirty && (slot.isNone || (slot.bind s.keyAt).isSome) then s'.writeLine (vl * 64) l else s'

/-- `n` lines from an address leave the caches, so that what was stored there stands in memory: a warm reset keeps it (17 R377). -/
def State.flushLines (s : State) (va n : Nat) : State :=
  (List.range n).foldl (fun s k => s.evict (va / 64 + k)) s

/-- Keeps a line in the caches (07 R175, R178): a bypassing access allocates nothing and leaves a present line's hint. An access
is forwarded to the L1 that holds the line, where it stays; else `l1` allocates it. -/
def State.keepLine (s : State) (va : Nat) (l : Line) (cached : Bool) (hint : Hint) (l1 : Option Nat) : State :=
  if hint = .bypass then
    if cached then { s with cache := FMap.put s.cache (va / 64) l }
    else if l.dirty then s.writeLine va { l with dirty := false } else s
  else { s with cache := FMap.put s.cache (va / 64) { l with hint := hint, l1 := l.l1.orElse (fun _ => l1) } }

/-! ## Bytes at their home -/

/-- The location of a byte: its logical place, before racking and translation. -/
def State.locate (s : State) (a : W64) : Nat :=
  match s.window a with
  | .spad fmt dev core off =>
    let off := if fmt = 7 then 0xF800 + off % 0x800 else off
    if dev = s.devid then keyOf spSpad (core * 2 ^ 16 + off) else keyOf spRemote (dev * 2 ^ 28 + core * 2 ^ 16 + off)
  | _ => keyOf spVirt a.toNat

/-- The physical key of a scratchpad byte: a swap exchanges the halves of the racking area (09 R237). -/
def State.spadKey (s : State) (loc : Nat) : Nat :=
  let off := offOf loc % 2 ^ 16
  if 0xF000 ≤ off ∧ (s.coreAt (offOf loc / 2 ^ 16)).live = true then
    (if off < 0xF800 then loc + 0x800 else loc - 0x800)
  else loc

/-- A byte that lies in a memory reached without a line: a scratchpad of this or another device. -/
def isDirect (loc : Nat) : Bool := decide (spaceOf loc = spSpad) || decide (spaceOf loc = spRemote)
def State.directKey (s : State) (loc : Nat) : Nat := if spaceOf loc = spSpad then s.spadKey loc else loc

/-- TVAL of a fault at a home (06 Table 6-6): the address of the access, for ECC with the syndrome (07 R185, log entry 15). -/
def faultTval (code : BitVec 8) (a : W64) : W64 :=
  if code = cEcc then (Config.syndrome (a.extractLsb' 0 56).toNat ++ a.extractLsb' 0 56 : BitVec 64) else a

/-- How reading bytes ends. -/
inductive ReadEnd where
  | ok (bytes : List Byte) (s : State)
  | invalid (pte : Nat)
  | stop (code : BitVec 8)
  deriving DecidableEq, Repr

/-- Reads bytes of one line, recording the access in the caches; an uncorrectable word is reported (07 R185). -/
def State.readLineBytes (s : State) (addrs : List Nat) (hint : Hint) (l1 : Option Nat) : ReadEnd :=
  match addrs with
  | [] => .ok [] s
  | a :: _ =>
    match s.look a with
    | .invalid p => .invalid p
    | .stop c => .stop c
    | .line l cached =>
      if addrs.any (fun x => l.bad.getLsbD (x % 64 / 8)) then .stop cEcc
      else
        .ok (addrs.map (fun x => l.data.extractLsb' (8 * (x % 64)) 8)) (s.keepLine a l cached hint l1)

/-- Writes bytes to the line's data. -/
def lineWrite (d : W512) : List Nat → List Byte → W512
  | a :: as, b :: bs =>
    let sh := 8 * (a % 64)
    lineWrite ((d &&& ~~~((0xFF : W512) <<< sh)) ||| ((b.setWidth 512) <<< sh)) as bs
  | _, _ => d

/-- The doublewords of a line that some bytes cover wholly, and those they touch. -/
def coversAll (addrs : List Nat) (w size : Nat) : Bool := (List.range size).all (fun i => addrs.contains (w + i))

/-- Writes bytes of one line (07 R185: an ECC word written whole is replaced; one written in part is read). -/
def State.writeLineBytes (s : State) (addrs : List Nat) (bs : List Byte) (hint : Hint) (l1 : Option Nat) : ReadEnd :=
  match addrs with
  | [] => .ok [] s
  | a :: _ =>
    match s.look a with
    | .invalid p => .invalid p
    | .stop c => .stop c
    | .line l cached =>
      if addrs.any (fun x => l.bad.getLsbD (x % 64 / 8) && !coversAll addrs (x / 8 * 8) 8) then .stop cEcc
      else
        let good := (List.range 8).foldl (fun (n : BitVec 8) i =>
          if coversAll addrs (a / 64 * 64 + 8 * i) 8 then n &&& ~~~((1 : BitVec 8) <<< i) else n) l.bad
        .ok [] (s.keepLine a { l with data := lineWrite l.data addrs bs, dirty := true, bad := good } cached hint l1)

/-- Reads the bytes at some locations, all of one access. -/
def State.readLocs (s : State) (locs : List Nat) (hint : Hint) (l1 : Option Nat) : ReadEnd :=
  let direct := locs.filter isDirect
  let lines := locs.filter (fun l => !isDirect l)
  if direct.any (fun l => s.bad.contains (s.directKey l / 4 * 4)) then .stop cEcc
  else
    match s.readLineBytes (lines.map offOf) hint l1 with
    | .ok bs s' => .ok (bs ++ direct.map (fun l => Memory.read s'.mem (s'.directKey l))) s'
    | e => e

/-- Writes bytes to some locations, all of one access. -/
def State.writeLocs (s : State) (locs : List Nat) (bs : List Byte) (hint : Hint) (l1 : Option Nat) : ReadEnd :=
  match locs with
  | [] => .ok [] s
  | l :: _ =>
    if isDirect l then
      let ks := locs.map s.directKey
      if ks.any (fun k => s.bad.contains (k / 4 * 4) && !coversAll ks (k / 4 * 4) 4) then .stop cEcc
      else .ok [] { s with mem := Memory.writeAll s.mem ks bs,
                                bad := s.bad.filter (fun w => !coversAll ks w 4) }
    else s.writeLineBytes (locs.map offOf) bs hint l1

/-- The byte that a read at an address would see now, without any effect: the model's read of one byte of memory. None
where the address maps to nothing, or is computed or a register. -/
def State.peek (s : State) (a : W64) : Option Byte :=
  match s.window a with
  | .spad _ _ _ _ => some (Memory.read s.mem (s.directKey (s.locate a)))
  | .paged | .cask _ _ =>
    match s.look a.toNat with
    | .line l _ => some (l.data.extractLsb' (8 * (a.toNat % 64)) 8)
    | _ => none
  | _ => none

end Sys2Proof.Machine
end

