-- ==== Sys2Proof/Machine/Fetch.lean ====
section
/-!
DEFINITION. Fetching a bundle (03 R49, R54, R55; 07 R179) and its kind (03 R49-R51).
-/
namespace Sys2Proof.Machine

/-- How a fetch ends. -/
inductive FetchEnd where
  | bundle (b : W64) (s : State)
  | trap (code : BitVec 8)
  /-- the walk met an invalid entry -/
  | invalid (pte : Nat)
  deriving DecidableEq, Repr

/-- The address is fetchable: paged memory or an fmt-0 scratchpad window (03 R54). -/
def State.fetchable (s : State) (a : W64) : Bool :=
  match s.window a with
  | .paged => true
  | .spad fmt _ _ _ => decide (fmt = 0)
  | _ => false

/-- The bytes at some locations as they were when a core's fetch was last made coherent with stores, or at the reset, where they
can be read so (03 R55, log entry 9). -/
def State.readCode (s : State) (c : Core) (locs : List Nat) (now : List Byte) : List Byte :=
  let v := c.code.getD s.boot
  match ({ s with mem := v.mem, enc := v.enc, cache := v.cache, bad := [] } : State).readLocs locs .bypass none with
  | .ok bs _ => bs
  | _ => now

/-- Fetches the bundle at an 8-aligned address for a core, as it was when fetch was last made coherent with stores (03 R54,
R55). -/
def State.fetch (s : State) (n : Nat) (a : W64) : FetchEnd :=
  let c := s.coreAt n
  if s.fetchable a = false then .trap cBadAddress
  else if s.absentUnit a then .trap cUnitAbsent
  else if c.pl = 0 ∧ s.permits c a rExec = false then .trap cProtection
  else match FMap.get? c.icache a.toNat with
    | some b => .bundle b s
    | none =>
      let l1 := (s.ctx? c.ctxid.toNat).map (fun x => x.homeCore a.toNat)
      let locs := (List.range 8).map (fun i => s.locate (a + BitVec.ofNat 64 i))
      match s.readLocs locs .default l1 with
      | .ok bs s' =>
        let b := BitVec.ofNat 64 (ofBytes (s.readCode c locs bs))
        .bundle b (s'.modCore n (fun c => { c with icache := FMap.put c.icache a.toNat b }))
      | .invalid p => .invalid p
      | .stop code => .trap code

/-- What a bundle is (03 Table 3-2, R50, R51), or the reason and word of ILLEGAL_INSTRUCTION. -/
inductive Bundle where
  | pair (w0 w1 : W32)
  | lone (w0 w1 : W32)
  | illegal (reason : BitVec 3) (word1 : Bool) (insn : W32)
  deriving DecidableEq, Repr

/-- Two rows name one register as a destination (03 R51). -/
def clash (i j : Instr) : Bool := (destsOf i).any (fun d => (destsOf j).contains d)

/-- The kind of a bundle. -/
def bundleKind (b : W64) : Bundle :=
  let w0 := (bundleWords b).1
  let w1 := (bundleWords b).2
  if wordL w1 = 1 then .illegal 2 true w1
  else if wordL w0 = 1 then
    (if ((rowOf w0).map isControl).getD false then .illegal 4 false w0 else .lone w0 w1)
  else if wordK w0 = 0 ∧ wordK w1 = 1 then
    match rowOf w0, rowOf w1 with
    | some i, some j => if clash i j then .illegal 5 true w1 else .pair w0 w1
    | _, _ => .pair w0 w1
  else .illegal 3 false w0

/-- The bundle is lone: the L bits of its words say so (03 R49, Table 3-2). -/
def isLone (b : W64) : Bool := decide (wordL (bundleWords b).1 = 1) && decide (wordL (bundleWords b).2 = 0)

/-- The kind of the bundle as the slot at a PC finds it: at bundle address + 4 word 1 of a lone bundle issues alone, and the checks
of word 0 were its own slot's (03 R52, R53). -/
def slotKind (pc b : W64) : Bundle :=
  if pc.getLsbD 2 && isLone b then .lone (bundleWords b).1 (bundleWords b).2 else bundleKind b

/-- The PC of a word of the bundle that the slot at a PC finds (03 R53). -/
def wordPc (pc b : W64) (word1 : Bool) : W64 :=
  let addr := pc &&& ~~~(7 : W64)
  match slotKind pc b with
  | .lone _ _ => if word1 then addr + 4 else addr
  | _ => addr

/-! ## Traps of the issue stage -/

/-- The issue register for a word of the slot at a PC. -/
def issueOf (c : Core) (pc next : W64) (word1 lone1 : Bool) (insn : W32) (stall : Nat) : Issue :=
  { pc := pc, next := next, word1 := word1, lone1 := lone1, insn := insn, stall := stall, nom := c.t.nom,
    instret := c.instret, rmode := c.t.rmode, ternbad := c.ternbad, before := c.t }

/-- The state in which a word of core `n` runs. -/
def State.withIssue (s : State) (n : Nat) (iss : Issue) : State :=
  { s.modCore n (fun c => { c with iss := iss }) with ev := { s.ev with core := n } }

/-- A trap of the issue stage at the slot being issued. -/
def State.issueTrap (s : State) (n : Nat) (pc : W64) (word1 : Bool) (insn : W32) (code : BitVec 8) (tval : W64) : State :=
  (s.withIssue n (issueOf (s.coreAt n) pc pc word1 false insn 0)).trapNow code tval

/-- ILLEGAL_INSTRUCTION of a word that does not decode (03 R74). -/
def rejectReason (r : Reject) : BitVec 3 := match r with | .opcode => 0 | .reserved => 1

/-- A fetch at the PC of core `n` fails (03 R54): the trap's cause. A walk that would park has no cause. -/
def State.fetchCause (s : State) (n : Nat) : Option (BitVec 8) :=
  match s.fetch n ((s.coreAt n).t.pc &&& ~~~(7 : W64)) with
  | .trap code => some code
  | .invalid _ => if (s.coreAt n).ctxid = 0 then some cPageFault else none
  | .bundle _ _ => none

/-- FETCH_FAULT: TVAL is the address of the bundle, for ECC with the syndrome (03 R54, 07 R185). -/
def State.fetchTrap (s : State) (n : Nat) (code : BitVec 8) : State :=
  let pc := (s.coreAt n).t.pc
  s.issueTrap n pc false 0 code (faultTval code (pc &&& ~~~(7 : W64)))

/-- A word that does not decode: reason 0 or 1 (03 R74). -/
def undecoded (word1 : Bool) (w : W32) : Option (Bool × W32 × BitVec 3) :=
  match decodeWord w with
  | .error r => some (word1, w, rejectReason r)
  | .ok _ => none

/-- Word 0 of a pair passes steps 3 to 6 of Table 3-11. -/
def Core.passes (c : Core) (pc : W64) (w : W32) : Bool :=
  match decodeWord w with
  | .error _ => false
  | .ok d => (({ c with iss := issueOf c pc (pc + 8) false false w 0 } : Core).issueCheck d.i).isNone

/-- ILLEGAL_INSTRUCTION of a bundle at a PC before its word runs (03 R49-R51, R74, R76): the word and the reason. -/
def Core.illegalAt (c : Core) (pc : W64) (b : W64) : Option (Bool × W32 × BitVec 3) :=
  match slotKind pc b with
  | .illegal reason word1 insn => some (word1, insn, reason)
  | .lone w0 w1 => if pc.getLsbD 2 then undecoded true w1 else undecoded false w0
  | .pair w0 w1 => (undecoded false w0).orElse (fun _ => if c.passes pc w0 then undecoded true w1 else none)

/-- The trap, at the PC of the bundle, or of the word where it is word 1 of a lone bundle (03 R56). -/
def State.illegalTrap (s : State) (n : Nat) (b : W64) (x : Bool × W32 × BitVec 3) : State :=
  s.issueTrap n (wordPc (s.coreAt n).t.pc b x.1) x.1 x.2.1 cIllegal (illegalTval x.2.2 x.1 x.2.1)

/-- A core that can issue its next slot. -/
def Core.canIssue (c : Core) : Bool := (decide (c.run = .running) || decide (c.run = .asleep)) && c.fpark.isNone

end Sys2Proof.Machine
end

