-- ==== Sys2Proof/Machine/Float.lean ====
section
/-!
DEFINITION. The number formats, rounding and conversion helpers (05 R97-R108). Every helper is pure: it takes the word
that a stochastic rounding would draw and says whether it drew it, and returns the flags it sets.
-/
namespace Sys2Proof.Machine

/-! ## Formats (05 R97, R98) -/

/-- A floating-point format: mantissa width, exponent width and bias. -/
structure Fmt where
  m : Nat
  e : Nat
  bias : Nat
  deriving DecidableEq, Repr

def fp64 : Fmt := { m := 52, e := 11, bias := 1023 }
def fp32 : Fmt := { m := 23, e := 8, bias := 127 }
def bf16 : Fmt := { m := 7, e := 8, bias := 127 }
def fp16 : Fmt := { m := 10, e := 5, bias := 15 }
def e5m2 : Fmt := { m := 2, e := 5, bias := 15 }
def e4m3 : Fmt := { m := 3, e := 4, bias := 7 }
def e2m1 : Fmt := { m := 1, e := 2, bias := 1 }

def Fmt.width (f : Fmt) : Nat := f.m + f.e + 1
/-- The sign bit's weight. -/
def Fmt.sign (f : Fmt) : Nat := 2 ^ (f.m + f.e)
/-- An infinity exists (05 Table 5-2). -/
def Fmt.hasInf (f : Fmt) : Bool := decide (f ≠ e4m3) && decide (f ≠ e2m1)
/-- The canonical NaN (05 Table 5-2); E2M1 has none. -/
def Fmt.nan (f : Fmt) : Nat :=
  if f = e4m3 then 0x7F else if f = e5m2 then 0x7E else (2 ^ f.e - 1) * 2 ^ f.m + 2 ^ (f.m - 1)
/-- The magnitude of an infinity. -/
def Fmt.inf (f : Fmt) : Nat := (2 ^ f.e - 1) * 2 ^ f.m
/-- The encoding of the largest finite magnitude (05 Table 5-1). -/
def Fmt.max (f : Fmt) : Nat := if f = e4m3 then 0x7E else if f = e2m1 then 7 else f.inf - 1

/-! ## Exact values -/

/-- An exact result: a NaN with its signalling mark, an infinity, or a rational with its sign; a zero keeps its sign. -/
inductive Num where
  | nan (signalling : Bool)
  | inf (neg : Bool)
  | fin (neg : Bool) (num den : Nat)
  deriving DecidableEq, Repr

/-- A magnitude times a power of two, as a rational. -/
def scaled (neg : Bool) (k : Nat) (e : Int) : Num :=
  if 0 ≤ e then .fin neg (k * 2 ^ e.toNat) 1 else .fin neg k (2 ^ (-e).toNat)

/-- Decode of a float encoding (05 R107). -/
def decodeFp (f : Fmt) (bits : Nat) : Num :=
  let b := bits % 2 ^ f.width
  let neg := decide (f.sign ≤ b)
  let mag := b % f.sign
  let ex := mag / 2 ^ f.m
  let man := mag % 2 ^ f.m
  if f = e4m3 ∧ mag = 0x7F then .nan false
  else if f.hasInf ∧ ex = 2 ^ f.e - 1 then
    if man = 0 then .inf neg else .nan (decide (f ≠ e5m2) && decide (man < 2 ^ (f.m - 1)))
  else if ex = 0 then scaled neg man (1 - (f.bias : Int) - f.m)
  else scaled neg (2 ^ f.m + man) ((ex : Int) - f.bias - f.m)

/-- floor(log2) of a positive rational. -/
def ilog2 (num den : Nat) : Int :=
  let e : Int := (Nat.log2 num : Int) - Nat.log2 den
  let below : Bool := if 0 ≤ e then decide (num < den * 2 ^ e.toNat) else decide (num * 2 ^ (-e).toNat < den)
  if below then e - 1 else e

/-- Rounding modes in the order of their codes (05 Table 5-3). -/
abbrev rmRne : Nat := 1
abbrev rmRtz : Nat := 2
abbrev rmRdn : Nat := 3
abbrev rmRup : Nat := 4
abbrev rmRna : Nat := 5
abbrev rmSr : Nat := 6

/-- RoundInt (05 R103) of num / den; `u` is the drawn word for `sr`. -/
def roundInt (num den rm : Nat) (neg : Bool) (u : Nat) : Nat :=
  let f := num / den
  let r := num % den
  if rm = rmRtz then f
  else if rm = rmRup then (if !neg && decide (r ≠ 0) then f + 1 else f)
  else if rm = rmRdn then (if neg && decide (r ≠ 0) then f + 1 else f)
  else if rm = rmRna then (if den ≤ 2 * r then f + 1 else f)
  else if rm = rmSr then (if u < r * 2 ^ 32 / den then f + 1 else f)
  else if den < 2 * r then f + 1
  else if 2 * r < den then f
  else if f % 2 = 0 then f else f + 1

/-- |x| / 2^e as a rational. -/
def ratScale (num den : Nat) (e : Int) : Nat × Nat :=
  if 0 ≤ e then (num, den * 2 ^ e.toNat) else (num * 2 ^ (-e).toNat, den)

/-- FLAGS bits (05 Table 5-6). -/
abbrev flNV : BitVec 5 := 16
abbrev flDZ : BitVec 5 := 8
abbrev flOF : BitVec 5 := 4
abbrev flUF : BitVec 5 := 2
abbrev flNX : BitVec 5 := 1

/-- A rounded value, the flags it sets, and whether it drew a stochastic word. -/
structure Rounded where
  bits : Nat
  flags : BitVec 5
  drew : Bool
  deriving DecidableEq, Repr

/-- Overflow and infinite inputs (05 Table 5-4). -/
def overflowTo (f : Fmt) (neg : Bool) (rm : Nat) (ieee : Bool) : Rounded :=
  let s := if neg then f.sign else 0
  let fl := flOF ||| flNX
  if f = e4m3 then { bits := s + (if ieee then 0x7F else f.max), flags := fl, drew := false }
  else if f = e2m1 then { bits := s + f.max, flags := fl, drew := false }
  else if ieee = false then { bits := s + f.max, flags := fl, drew := false }
  else
    let toInf : Bool := if rm = rmRtz then false else if rm = rmRup then !neg else if rm = rmRdn then neg else true
    { bits := s + (if toInf then f.inf else f.max), flags := fl, drew := false }

def infTo (f : Fmt) (neg : Bool) (ieee : Bool) : Rounded :=
  let s := if neg then f.sign else 0
  if f = e4m3 then
    if ieee then { bits := s + 0x7F, flags := flNV, drew := false }
    else { bits := s + f.max, flags := flOF ||| flNX, drew := false }
  else if f = e2m1 then { bits := s + f.max, flags := 0, drew := false }
  else { bits := s + f.inf, flags := 0, drew := false }

/-- RoundToFormat (05 R103). `rm` is a code of Table 5-3 other than `dyn`; `u` is the stochastic word. -/
def roundTo (x : Num) (f : Fmt) (rm : Nat) (ieee : Bool) (u : Nat) : Rounded :=
  match x with
  | .nan sig => { bits := f.nan, flags := if sig then flNV else 0, drew := false }
  | .inf neg => infTo f neg ieee
  | .fin neg num den =>
    let s := if neg then f.sign else 0
    if num = 0 then { bits := s, flags := 0, drew := false }
    else
      let emin : Int := 1 - (f.bias : Int)
      let lg := ilog2 num den
      let e := max lg emin
      let (a, b) := ratScale num den (e - f.m)
      let k := roundInt a b rm neg u
      let exact : Bool := decide (a % b = 0)
      let drew := decide (rm = rmSr) && !exact
      let (k', e') := if k = 2 ^ (f.m + 1) then (2 ^ f.m, e + 1) else (k, e)
      let enc := if k' < 2 ^ f.m then k' else (e' + f.bias).toNat * 2 ^ f.m + (k' - 2 ^ f.m)
      if f.max < enc then { overflowTo f neg rm ieee with drew := drew }
      else if exact then { bits := s + enc, flags := 0, drew := drew }
      else
        let (a', b') := ratScale num den (lg - f.m)
        let t := roundInt a' b' rm neg u
        -- |t| × 2^(lg − m) is below the smallest normal number
        let tiny : Bool := decide (lg < emin) && !(decide (t = 2 ^ (f.m + 1)) && decide (lg + 1 = emin))
        { bits := s + enc, flags := flNX ||| (if tiny then flUF else 0), drew := drew }

/-! ## Integer formats (05 R100, R107) -/

/-- An integer's two's-complement value as an exact number. -/
def numOfInt (x : Int) : Num := .fin (decide (x < 0)) x.natAbs 1

/-- The signed value of the low `w` bits. -/
def sxBits (w : Nat) (x : Nat) : Int :=
  let b := x % 2 ^ w
  if 2 ^ (w - 1) ≤ b ∧ 0 < w then (b : Int) - 2 ^ w else b

/-- The low `w` bits of an integer. -/
def wrapInt (w : Nat) (x : Int) : Nat := (x % (2 ^ w : Int)).toNat

/-- Convert into an integer of `w` bits: saturating, NaN gives 0 (05 R107). -/
def toIntFmt (x : Num) (w rm u : Nat) : Rounded :=
  match x with
  | .nan _ => { bits := 0, flags := flNV, drew := false }
  | .inf neg => { bits := if neg then 2 ^ (w - 1) else 2 ^ (w - 1) - 1, flags := flNV, drew := false }
  | .fin neg num den =>
    let k := roundInt num den rm neg u
    let drew := decide (rm = rmSr) && decide (num % den ≠ 0)
    if neg then
      if 2 ^ (w - 1) < k then { bits := 2 ^ (w - 1), flags := flNV, drew := drew }
      else { bits := wrapInt w (-(k : Int)), flags := if num % den = 0 then 0 else flNX, drew := drew }
    else if 2 ^ (w - 1) ≤ k then { bits := 2 ^ (w - 1) - 1, flags := flNV, drew := drew }
    else { bits := k, flags := if num % den = 0 then 0 else flNX, drew := drew }

/-! ## Arithmetic on exact values (05 R105) -/

/-- An exact result with the flags that its operands set. -/
structure Exact where
  x : Num
  flags : BitVec 5
  deriving DecidableEq, Repr

def Num.isNan : Num → Bool | .nan _ => true | _ => false
def Num.sig : Num → Bool | .nan s => s | _ => false
def Num.neg : Num → Num
  | .nan s => .nan s
  | .inf n => .inf (!n)
  | .fin n a b => .fin (!n) a b
def Num.isZero : Num → Bool | .fin _ 0 _ => true | _ => false
def Num.sgn : Num → Bool | .nan _ => false | .inf n => n | .fin n _ _ => n

/-- The result of an operation with a NaN operand, or an invalid one. -/
def quietNan (fl : BitVec 5) : Exact := { x := .nan false, flags := fl }
def nanFlags (xs : List Num) : BitVec 5 := if xs.any Num.sig then flNV else 0

/-- The signed sum of two finite values; an exact zero has the sign of R105. -/
def finAdd (n1 : Bool) (a b : Nat) (n2 : Bool) (c d : Nat) (rm : Nat) : Num :=
  let l := a * d
  let r := c * b
  if n1 = n2 then .fin n1 (l + r) (b * d)
  else if l = r then .fin (decide (rm = rmRdn)) 0 1
  else if r < l then .fin n1 (l - r) (b * d)
  else .fin n2 (r - l) (b * d)

def numAdd (x y : Num) (rm : Nat) : Exact :=
  if x.isNan || y.isNan then quietNan (nanFlags [x, y])
  else match x, y with
    | .inf a, .inf b => if a = b then { x := .inf a, flags := 0 } else quietNan flNV
    | .inf a, _ => { x := .inf a, flags := 0 }
    | _, .inf b => { x := .inf b, flags := 0 }
    | .fin n1 a b, .fin n2 c d => { x := finAdd n1 a b n2 c d rm, flags := 0 }
    | _, _ => quietNan 0

def numMul (x y : Num) : Exact :=
  if x.isNan || y.isNan then quietNan (nanFlags [x, y])
  else match x, y with
    | .inf a, .inf b => { x := .inf (a != b), flags := 0 }
    | .inf a, .fin n c _ => if c = 0 then quietNan flNV else { x := .inf (a != n), flags := 0 }
    | .fin n c _, .inf b => if c = 0 then quietNan flNV else { x := .inf (n != b), flags := 0 }
    | .fin n1 a b, .fin n2 c d => { x := .fin (n1 != n2) (a * c) (b * d), flags := 0 }
    | _, _ => quietNan 0

def numDiv (x y : Num) : Exact :=
  if x.isNan || y.isNan then quietNan (nanFlags [x, y])
  else match x, y with
    | .inf _, .inf _ => quietNan flNV
    | .inf a, .fin n _ _ => { x := .inf (a != n), flags := 0 }
    | .fin n _ _, .inf b => { x := .fin (n != b) 0 1, flags := 0 }
    | .fin n1 a b, .fin n2 c d =>
      if c = 0 then (if a = 0 then quietNan flNV else { x := .inf (n1 != n2), flags := flDZ })
      else { x := .fin (n1 != n2) (a * d) (b * c), flags := 0 }
    | _, _ => quietNan 0

/-- The fused product and sum: the product is not rounded (05 R120). -/
def numFma (x y z : Num) (rm : Nat) : Exact :=
  let prod := numMul x y
  let zeroInf : Bool := !(x.isNan || y.isNan) && prod.x.isNan
  if x.isNan || y.isNan || z.isNan || zeroInf then
    quietNan (nanFlags [x, y, z] ||| (if zeroInf then flNV else 0))
  else numAdd prod.x z rm

/-- floor(√n), by bits from `2^k` down. -/
def isqrtFrom (n : Nat) : Nat → Nat → Nat
  | 0, r => if (r + 1) * (r + 1) ≤ n then r + 1 else r
  | k + 1, r => let t := r + 2 ^ (k + 1); isqrtFrom n k (if t * t ≤ n then t else r)
def isqrt (n : Nat) : Nat := isqrtFrom n (Nat.log2 n / 2 + 1) 0

/-- √(num / den) to `2^-k` of a unit: exact, or a value strictly between the neighbours, which rounds as the root does
in any format with fewer bits. -/
def sqrtSticky (neg : Bool) (num den k : Nat) : Num :=
  let t := num * 4 ^ k
  let r := isqrt (t / den)
  if r * r * den = t then .fin neg r (2 ^ k) else .fin neg (2 * r + 1) (2 ^ (k + 1))

/-- The square root (05 R119). -/
def numSqrt (x : Num) : Exact :=
  match x with
  | .nan s => quietNan (if s then flNV else 0)
  | .inf n => if n then quietNan flNV else { x := .inf false, flags := 0 }
  | .fin n a b =>
    if a = 0 then { x := .fin n 0 1, flags := 0 }
    else if n then quietNan flNV
    else { x := sqrtSticky false a b (64 + Nat.log2 b), flags := 0 }

/-- Order of two exact values that are no NaN, with -0 equal to +0. -/
def numLt (x y : Num) : Bool :=
  match x, y with
  | .inf a, .inf b => a && !b
  | .inf a, _ => a
  | _, .inf b => !b
  | .fin n1 a b, .fin n2 c d =>
    let l : Int := (if n1 then -(a : Int) else a) * d
    let r : Int := (if n2 then -(c : Int) else c) * b
    decide (l < r)
  | _, _ => false

/-- Lesser (or greater) of two encodings (05 R121): bits and flags. -/
def fminmax (f : Fmt) (wantMax : Bool) (a b : Nat) : Nat × BitVec 5 :=
  let x := decodeFp f a
  let y := decodeFp f b
  let fl := nanFlags [x, y]
  let a := a % 2 ^ f.width
  let b := b % 2 ^ f.width
  if x.isNan && y.isNan then (f.nan, fl)
  else if x.isNan then (b, fl)
  else if y.isNan then (a, fl)
  else
    let less : Bool := numLt x y || (x.isZero && y.isZero && x.sgn && !y.sgn)
    (if less then (if wantMax then b else a) else if numLt y x || (x.isZero && y.isZero && y.sgn && !x.sgn) then
      (if wantMax then a else b) else a, fl)

/-! ## Block-scaled E2M1 and ternary codes (05 R99, R100, R108) -/

/-- The exact value of an E2M1 code times an E4M3 scale; a NaN scale gives a NaN. -/
def e2m1Scaled (code scale : Nat) : Num :=
  match decodeFp e4m3 scale with
  | .nan _ => .nan false
  | sc => (numMul (decodeFp e2m1 code) sc).x

/-- The magnitude of a finite value as a rational. -/
def Num.absRat : Num → Nat × Nat
  | .fin _ a b => (a, b)
  | _ => (0, 1)

/-- BlockScale (05 R108): the scale byte, the codes, the flags and the number of stochastic words drawn. `u i` is the
word that draw `i` would take. -/
def blockScale (xs : List Num) (rm : Nat) (ieee : Bool) (u : Nat → Nat) : Nat × List Nat × BitVec 5 × Nat :=
  if xs.any (fun x => match x with | .fin _ _ _ => false | _ => true) then (0x7F, xs.map (fun _ => 0), flNV, 0)
  else
    let a := xs.foldl (fun (m : Nat × Nat) x => let (p, q) := x.absRat; if m.1 * q < p * m.2 then (p, q) else m) (0, 1)
    if a.1 = 0 then (0, xs.map (fun x => if x.sgn then 8 else 0), 0, 0)
    else
      let sb := (roundTo (.fin false a.1 (a.2 * 6)) e4m3 rmRup false 0).bits
      let sc := (decodeFp e4m3 sb).absRat
      let rm' := if rm = rmSr then rmSr else rmRne
      let r := xs.foldl (fun (acc : List Nat × BitVec 5 × Nat) x =>
        let (p, q) := x.absRat
        let y := roundTo (.fin x.sgn (p * sc.2) (q * sc.1)) e2m1 rm' ieee (u acc.2.2)
        (acc.1 ++ [y.bits], acc.2.1 ||| y.flags, acc.2.2 + (if y.drew then 1 else 0))) ([], 0, 0)
      (sb, r.1, r.2.1, r.2.2)

/-! ## Element types (13 R300) -/

/-- The float format of a type code (13 Table 13-2). -/
def fmtOfType (ty : Nat) : Fmt :=
  if ty = 4 then bf16 else if ty = 5 then fp16 else if ty = 6 then fp32 else if ty = 7 then fp64
  else if ty = 8 then e4m3 else e5m2

/-- Decode by type code (05 R107). -/
def decodeType (ty bits : Nat) : Num :=
  if ty ≤ 3 then numOfInt (sxBits (8 * 2 ^ ty) bits) else decodeFp (fmtOfType ty) bits

/-- Convert's last step into a type code (05 R107). -/
def roundToType (x : Num) (ty rm : Nat) (ieee : Bool) (u : Nat) : Rounded :=
  if ty ≤ 3 then toIntFmt x (8 * 2 ^ ty) rm u else roundTo x (fmtOfType ty) rm ieee u

end Sys2Proof.Machine
end

