-- ==== Sys2Proof/Machine/Real.lean ====
section
/-!
DEFINITION. Correctly rounded transcendental values (13 R308, 07 R173): fixed-point enclosures of 2^a, sin x and cos x,
refined until both ends round alike: 64 times with twice the precision. No value that is not representable itself lies closer
to a rounding boundary than the last; were one to, a free value would decide (log entry 16).
-/
namespace Sys2Proof.Machine

/-- An enclosure at scale 2^-P: the true value times 2^P differs from `v` by at most `err`. -/
structure Encl where
  v : Int
  err : Nat
  deriving DecidableEq, Repr

def Encl.mul (p : Nat) (a b : Encl) : Encl :=
  { v := a.v * b.v / 2 ^ p
    err := (a.v.natAbs * b.err + b.v.natAbs * a.err + a.err * b.err) / 2 ^ p + 2 }
def Encl.add (a b : Encl) : Encl := { v := a.v + b.v, err := a.err + b.err }
/-- Times a rational, `den > 0`. -/
def Encl.scale (a : Encl) (num : Int) (den : Nat) : Encl :=
  { v := a.v * num / den, err := a.err * num.natAbs / den + 2 }

/-- Σ over k ≥ 1 of 2^P / (k 2^k), `n` terms from `k` on: ln 2. -/
def ln2Sum (p : Nat) : Nat → Nat → Nat
  | _, 0 => 0
  | k, n + 1 => 2 ^ p / (k * 2 ^ k) + ln2Sum p (k + 1) n
def ln2At (p : Nat) : Encl := { v := ln2Sum p 1 p, err := p + 2 }

/-- Σ of (±) 2^P / ((2i+1) m^(2i+1)): the arctangent of 1 / m. `t` is 2^P / m^(2i+1). -/
def atanSum (m : Nat) : Nat → Nat → Nat → Int
  | _, _, 0 => 0
  | t, i, n + 1 => (if i % 2 = 0 then ((t / (2 * i + 1) : Nat) : Int) else -((t / (2 * i + 1) : Nat) : Int))
      + atanSum m (t / (m * m)) (i + 1) n
/-- π by Machin's formula. -/
def piAt (p : Nat) : Encl :=
  { v := 16 * atanSum 5 (2 ^ p / 5) 0 p - 4 * atanSum 239 (2 ^ p / 239) 0 p, err := 64 * (p + 2) }

/-- Σ y^k / k!, from the term `t` of index `k - 1` on. -/
def expSum (p : Nat) (y : Int) : Int → Nat → Nat → Int
  | t, _, 0 => t
  | t, k, n + 1 => t + expSum p y (t * y / (2 ^ p * k : Nat)) (k + 1) n
/-- e^y for |y| < 1. -/
def expAt (p : Nat) (y : Encl) : Encl :=
  { v := expSum p y.v (2 ^ p) 1 p, err := 4 * y.err + 8 * (p + 2) }

/-- Σ z^(2i+1) / (2i+1) twice: the logarithm of (1 + z) / (1 - z). -/
def atanhSum (p : Nat) (zz : Int) : Int → Nat → Nat → Int
  | _, _, 0 => 0
  | t, i, n + 1 => t / (2 * i + 1 : Nat) + atanhSum p zz (t * zz / 2 ^ p) (i + 1) n
/-- ln of num / den in [1, 2). -/
def lnUnit (p num den : Nat) : Encl :=
  let z : Int := (((num - den) * 2 ^ p / (num + den) : Nat) : Int)
  { v := 2 * atanhSum p (z * z / 2 ^ p) z 0 p, err := 16 * (p + 2) }

/-- sin (`odd`) or cos as Σ of alternating terms, from the term `t` with index `k` on. -/
def trigSum (p : Nat) (rr : Int) : Int → Nat → Nat → Int
  | _, _, 0 => 0
  | t, k, n + 1 => t + trigSum p rr (-(t * rr / (2 ^ p * ((k + 1) * (k + 2)) : Nat))) (k + 2) n

/-- The sine or cosine of an enclosed argument. -/
def trigAt (p : Nat) (sine : Bool) (x : Encl) : Encl :=
  let twoPi : Encl := (piAt p).scale 2 1
  let n := x.v / twoPi.v
  let r : Encl := { v := x.v - n * twoPi.v, err := x.err + n.natAbs * twoPi.err }
  let rr := r.v * r.v / 2 ^ p
  { v := if sine then trigSum p rr r.v 1 p else trigSum p rr (2 ^ p) 0 p, err := r.err + 2 ^ 12 * (p + 2) }

/-- An integer at scale 2^-P as an exact number. -/
def numAt (p : Nat) (v : Int) : Num := .fin (decide (v < 0)) v.natAbs (2 ^ p)

/-- The rounding of an enclosed value, where both ends round alike. -/
def roundEncl (p : Nat) (x : Encl) (f : Fmt) (rm : Nat) (ieee : Bool) : Option Rounded :=
  let lo := roundTo (numAt p (x.v - x.err)) f rm ieee 0
  let hi := roundTo (numAt p (x.v + x.err)) f rm ieee 0
  if lo = hi then some lo else none

/-- Precisions from `p` on, each twice the one before. -/
def precisions (p : Nat) : List Nat := (List.range 64).map (fun i => p * 2 ^ i)

/-- The first precision that decides, from a list; else a free choice between the ends of the last. -/
def refine (at_ : Nat → Encl) (f : Fmt) (rm : Nat) (ieee : Bool) (fn : Nat) (arg : Nat) : List Nat → Nat → Rounded
  | [], last =>
    let x := at_ last
    if Config.undecided fn (BitVec.ofNat 64 arg) then roundTo (numAt last (x.v + x.err)) f rm ieee 0
    else roundTo (numAt last (x.v - x.err)) f rm ieee 0
  | p :: ps, _ =>
    match roundEncl p (at_ p) f rm ieee with
    | some r => r
    | none => refine at_ f rm ieee fn arg ps p

/-- 2^a rounded (13 R308), `a` finite: num / den with its sign. -/
def roundExp2 (neg : Bool) (num den : Nat) (f : Fmt) (rm arg : Nat) : Rounded :=
  let a : Int := if neg then -(num : Int) else num
  let n := a / den
  let fr := (a % den).toNat
  if fr = 0 ∧ n.natAbs ≤ 2200 then roundTo (scaled false 1 n) f rm true 0
  else if 2200 < n then roundTo (scaled false 3 2200) f rm true 0
  else if n < -2200 then roundTo (scaled false 3 (-2200)) f rm true 0
  else
    refine (fun p =>
      let q := p + n.natAbs
      let e := expAt q ((ln2At q).scale fr den)
      if 0 ≤ n then { v := e.v * 2 ^ n.toNat / 2 ^ n.natAbs, err := e.err * 2 ^ n.toNat / 2 ^ n.natAbs + 2 }
      else { v := e.v / 2 ^ n.natAbs / 2 ^ n.natAbs, err := e.err / 2 ^ n.natAbs / 2 ^ n.natAbs + 2 })
      f rm true 0 arg (precisions 160) 0

/-- The argument of a ROTARY element: p × BASE^(-2k / D) (07 R173), BASE = num / den. -/
def rotaryArg (prec pos k d num den : Nat) : Encl :=
  let lg := ilog2 num den
  -- BASE = m × 2^lg with m in [1, 2)
  let (mn, md) := ratScale num den lg
  let lnB : Encl := (lnUnit prec mn md).add ((ln2At prec).scale lg 1)
  let t : Encl := lnB.scale (-(2 * k : Int)) d
  let n := t.v / (ln2At prec).v
  let r : Encl := t.add ((ln2At prec).scale (-n) 1)
  let e := expAt prec r
  let x : Encl := if 0 ≤ n then e.scale (2 ^ n.toNat : Nat) 1 else { v := e.v / 2 ^ n.natAbs, err := e.err / 2 ^ n.natAbs + 2 }
  x.scale pos 1

/-- A ROTARY element, correctly rounded (07 R173). -/
def rotary (sine : Bool) (pos k d num den : Nat) (f : Fmt) : Nat :=
  if pos = 0 then (if sine then 0 else (roundTo (.fin false 1 1) f rmRne true 0).bits)
  else
    -- the size of the argument in bits, and how far below 1 it lies
    let lgx : Int := ilog2 pos 1 + (-(2 * k : Int)) * (ilog2 num den) / d
    if sine = true ∧ lgx < -400 then 0
    else
      let big := (lgx + 4).toNat
      (refine (fun q => trigAt (q + 2 * big) sine (rotaryArg (q + 2 * big) pos k d num den) |>
          (fun e => { v := e.v / 2 ^ (2 * big), err := e.err / 2 ^ (2 * big) + 2 }))
        f rmRne true (if sine then 1 else 2) (pos * 2 ^ 20 + k) (precisions 192) 0).bits

end Sys2Proof.Machine
end

