-- ==== Sys2Proof/Machine/Gen.lean ====
section
/-!
DEFINITION. Generator windows (07 R172-R174, R193) and the decode of the scratchpad format windows (07 R166).
-/
namespace Sys2Proof.Machine

/-- A field of a descriptor: `n` bytes from byte `o`. -/
def descField (d : BitVec 512) (o n : Nat) : Nat := (d.toNat / 2 ^ (8 * o)) % 2 ^ (8 * n)

def genEfmt (d : BitVec 512) : Nat := descField d 1 1
/-- The size of an element in bytes (07 Table 7-5). -/
def efmtSize (e : Nat) : Nat :=
  if e = 0 then 8 else if e = 1 then 4 else if e = 2 then 2 else if e = 3 then 2 else if e = 4 then 1
  else if e = 5 then 2 else if e = 6 then 4 else 8
/-- The float format of an element format, if it is one. -/
def efmtFmt (e : Nat) : Option Fmt :=
  if e = 0 then some fp64 else if e = 1 then some fp32 else if e = 2 then some bf16 else if e = 3 then some fp16 else none

/-- A number in an element format: RNE with ieee overflow, or saturated for an integer format. -/
def toEfmt (e : Nat) (x : Num) : Nat :=
  match efmtFmt e with
  | some f => (roundTo x f rmRne true 0).bits
  | none => (toIntFmt x (8 * efmtSize e) rmRtz 0).bits

/-- The descriptor passes the checks of 07 R193. -/
def genValid (d : BitVec 512) : Bool :=
  let fn := genFunc d
  let e := genEfmt d
  if 4 < fn then false
  else if 1 ≤ fn ∧ fn ≤ 3 ∧ 7 < e then false
  else if fn = 3 then
    let dd := descField d 8 4
    (decide (e = 1) || decide (e = 2)) && decide (dd % 2 = 0) && decide (dd ≠ 0) && decide (dd ≤ 65536)
      && (match decodeFp fp64 (descField d 16 8) with | .fin n a _ => !n && decide (a ≠ 0) | _ => false)
  else if fn = 2 then decide (descField d 8 4 ≠ 0) && decide (descField d 0x18 1 ≤ 2)
  else true

/-- An element of RAMP, CAUSAL or ROTARY (07 R173). -/
def genElem (d : BitVec 512) (i : Nat) : Nat :=
  let e := genEfmt d
  let fn := genFunc d
  if fn = 1 then
    match efmtFmt e with
    | some _ =>
      let st := decodeFp fp64 (descField d 8 8)
      let step := decodeFp fp64 (descField d 16 8)
      toEfmt e (numAdd st (numMul (.fin false i 1) step).x rmRne).x
    | none => toEfmt e (numOfInt (sxBits 64 (descField d 8 8) + i * sxBits 64 (descField d 16 8)))
  else if fn = 2 then
    let w := descField d 8 4
    let row : Int := i / w
    let col : Int := i % w
    if (descField d 0x10 4 : Int) + col ≤ (descField d 0x0C 4 : Int) + row + sxBits 32 (descField d 0x14 4) then 0
    else
      let k := descField d 0x18 1
      match efmtFmt e with
      | some f =>
        if k = 0 then f.sign + f.inf else if k = 2 then toEfmt e (.fin false 1 1)
        else toEfmt e (decodeFp fp64 (descField d 0x20 8))
      | none =>
        if k = 0 then 2 ^ (8 * efmtSize e - 1) else if k = 2 then 1
        else toEfmt e (numOfInt (sxBits 64 (descField d 0x20 8)))
  else
    let dd := descField d 8 4
    let row := i / dd
    let col := i % dd
    match decodeFp fp64 (descField d 16 8), efmtFmt e with
    | .fin _ a b, some f => rotary (decide (col % 2 = 1)) (descField d 0x0C 4 + row) (col / 2) dd a b f
    | _, _ => 0

/-- Philox4x32-10 (07 R173): the four counters and two keys, `n` rounds left. -/
def philox : Nat → Nat → Nat → Nat → Nat → Nat → Nat → Nat × Nat × Nat × Nat
  | 0, c0, c1, c2, c3, _, _ => (c0, c1, c2, c3)
  | n + 1, c0, c1, c2, c3, k0, k1 =>
    let p0 := 0xD2511F53 * c0
    let p1 := 0xCD9E8D57 * c2
    philox n ((p1 / 2 ^ 32) ^^^ c1 ^^^ k0) (p1 % 2 ^ 32) ((p0 / 2 ^ 32) ^^^ c3 ^^^ k1) (p0 % 2 ^ 32)
      ((k0 + 0x9E3779B9) % 2 ^ 32) ((k1 + 0xBB67AE85) % 2 ^ 32)

/-- Byte `b` of a generator window (07 R173). -/
def genByte (d : BitVec 512) (b : Nat) : Byte :=
  if genFunc d = 4 then
    let j := b / 16
    let st := descField d 16 8
    let key := descField d 8 8
    let (x0, x1, x2, x3) := philox 10 (j % 2 ^ 32) (j / 2 ^ 32) (st % 2 ^ 32) (st / 2 ^ 32) (key % 2 ^ 32) (key / 2 ^ 32)
    BitVec.ofNat 8 ((x0 + 2 ^ 32 * (x1 + 2 ^ 32 * (x2 + 2 ^ 32 * x3))) / 2 ^ (8 * (b % 16)))
  else
    let e := efmtSize (genEfmt d)
    BitVec.ofNat 8 (genElem d (b / e) / 2 ^ (8 * (b % e)))

/-- Bytes of a generator window. -/
def genBytes (d : BitVec 512) (off n : Nat) : List Byte := (List.range n).map (fun i => genByte d (off + i))

/-! ## Format windows (07 R166, Table 7-2) -/

/-- Packs elements of `w` bytes into a register. -/
def packLanes (w : Nat) : List Nat → Nat
  | [] => 0
  | x :: xs => x % 2 ^ (8 * w) + 2 ^ (8 * w) * packLanes w xs

/-- A decoded float as BF16, exactly; a NaN is canonical. -/
def toBf16 (x : Num) : Nat := (roundTo x bf16 rmRne true 0).bits

/-- The register form of stored bytes read through a format window, and the count of ternary code 10. For fmt 3 the two
scale bytes follow the sixteen data bytes. -/
def decodeWindow (fmt : Nat) (bs : List Byte) : W512 × Nat :=
  let n := bs.map BitVec.toNat
  match fmt with
  | 1 => (BitVec.ofNat 512 (packLanes 2 (n.map (fun b => toBf16 (decodeFp e4m3 b)))), 0)
  | 2 => (BitVec.ofNat 512 (packLanes 2 (n.map (fun b => toBf16 (decodeFp e5m2 b)))), 0)
  | 3 =>
    let code (i : Nat) := if i % 2 = 0 then n.getD (i / 2) 0 % 16 else n.getD (i / 2) 0 / 16
    (BitVec.ofNat 512 (packLanes 2 ((List.range 32).map (fun i =>
      toBf16 (e2m1Scaled (code i) (n.getD (16 + i / 16) 0))))), 0)
  | 4 => (BitVec.ofNat 512 (packLanes 2 (n.map (fun b => wrapInt 16 (sxBits 8 b)))), 0)
  | 5 =>
    let code (i : Nat) := n.getD (i / 4) 0 / 4 ^ (i % 4) % 4
    (BitVec.ofNat 512 (packLanes 1 ((List.range 64).map (fun i =>
        if code i = 1 then 1 else if code i = 3 then 0xFF else 0))),
      (List.range 64).foldl (fun a i => if code i = 2 then a + 1 else a) 0)
  | 6 => (BitVec.ofNat 512 (packLanes 4 ((List.range 32).filterMap (fun i =>
        if i % 2 = 0 then some ((n.getD i 0 + 256 * n.getD (i + 1) 0) * 65536) else none))), 0)
  | _ => (BitVec.ofNat 512 (ofBytes bs), 0)

end Sys2Proof.Machine
end

