-- ==== Sys2Proof/Machine/Flags.lean ====
section
/-!
DEFINITION. FLAGS, RMODE and stochastic rounding (05 R106, R109-R111), and the flags of float words on their way.
-/
namespace Sys2Proof.Machine

/-- The float format of a precision (05 R114). -/
def fmtOf : Prec → Fmt
  | .f64 => fp64
  | .f32 => fp32
  | .bf16 => bf16
  | .f16 => fp16

/-- RMODE.MODE (05 Table 5-7). -/
def modeOf (rmode : W64) : Nat := (rmode.extractLsb' 0 3).toNat
/-- The rounding mode of a rounding field: `dyn` takes RMODE.MODE (05 R103). -/
def roundField (rmode : W64) (r : BitVec 3) : Nat := if r = 0 then modeOf rmode else r.toNat
/-- The mode of a word that never rounds stochastically: `sr` is `rne` (05 R103). -/
def plainMode (m : Nat) : Nat := if m = rmSr then rmRne else m

/-- FLAGS with the flags of float words that are set by a nominal slot time (05 R110). -/
def Thread.flagsAt (t : Thread) (now : Nat) : BitVec 5 :=
  (t.pendFlags.filter (fun e => decide (e.visible ≤ now))).foldl (fun f (e : PendFlags) => f ||| e.bits) t.flags

/-- The flags of the word being issued, set when its result is visible (05 R110). -/
def Core.raise (c : Core) (fl : BitVec 5) (lat : Nat) : Core :=
  { c with t := { c.t with
      flags := c.t.flagsAt c.iss.nom
      pendFlags := c.t.pendFlags.filter (fun e => !decide (e.visible ≤ c.iss.nom))
        ++ [{ bits := fl, issued := c.iss.nom, visible := c.iss.nom + lat }] } }

/-- Flags that are set at once. -/
def Core.raiseNow (c : Core) (fl : BitVec 5) : Core := { c with t := { c.t with flags := c.t.flags ||| fl } }

/-- A float result of the word being issued with its flags. -/
def State.outF (s : State) (d : BitVec 5) (x : Nat) (fl : BitVec 5) (lat : Nat) : State :=
  s.modCur (fun c => (c.out .s d.toNat (BitVec.ofNat 512 x) lat).raise fl lat)

/-! ## Stochastic words (05 R106) -/

/-- RMODE.GEN and RMODE.SRCTR. -/
def genOf (rmode : W64) : Nat := (rmode.extractLsb' 4 3).toNat
def srctrOf (rmode : W64) : Nat := (rmode.extractLsb' 32 32).toNat

/-- The address that draw `k` of the word being issued reads. -/
def srAddr (rmode : W64) (k : Nat) : W64 :=
  BitVec.ofNat 64 (0x00FC_0000_0000_0000 + genOf rmode * 2 ^ 40 + 4 * ((srctrOf rmode + k) % 2 ^ 32))

/-- SRWord of draw `k`. -/
def Core.srWord (c : Core) (k : Nat) : Nat :=
  ofBytes (genBytes (c.gen (genOf c.t.rmode)) (4 * ((srctrOf c.t.rmode + k) % 2 ^ 32)) 4)

/-- The fault of the first of `n` draws that would fault. -/
def State.srFault (s : State) (n : Nat) : Option (BitVec 8 × W64) :=
  (List.range n).findSome? (fun k =>
    (s.accCheck s.cur .load (srAddr s.cur.t.rmode k) 4).map (fun code => (code, srAddr s.cur.t.rmode k)))

/-- SRCTR after `n` draws. -/
def Thread.drawn (t : Thread) (n : Nat) : Thread :=
  if n = 0 then t else { t with rmode := BitVec.ofNat 32 (srctrOf t.rmode + n) ++ t.rmode.extractLsb' 0 32 }
def Core.drawn (c : Core) (n : Nat) : Core := { c with t := c.t.drawn n }

end Sys2Proof.Machine
end

