-- ==== Sys2Proof/Machine/Csr.lean ====
section
/-!
DEFINITION. The special registers: the view and the write of every CSR (06 R132-R139) and `csrr`, `csrw`, `csrx`
(06 R153).
-/
namespace Sys2Proof.Machine

/-- A bit as a 64-bit value. -/
def bit64 (b : Bool) : W64 := if b then 1 else 0

/-- The context of a core. -/
def State.ctxOf (s : State) (c : Core) : Option Ctx := if c.ctxid = 0 then none else s.ctx? c.ctxid.toNat

/-- MODEF bits of a core's context (12 Table 12-6). -/
def State.isDet (s : State) (c : Core) : Bool := ((s.ctxOf c).map (fun x => x.rcb.modef.getLsbD 1)).getD false

/-- CTL (06 Table 6-2). -/
def State.ctl (s : State) (c : Core) : W64 :=
  (c.pl.setWidth 64 <<< 10) ||| (bit64 c.yreq <<< 9) ||| (bit64 (s.isDet c) <<< 8)
    ||| (c.t.homepol.setWidth 64 <<< 2) ||| (bit64 c.dzt <<< 1) ||| bit64 c.check

/-- QUANTUM (12 Table 12-8). -/
def State.quantum (s : State) (c : Core) : W64 :=
  match s.ctxOf c with
  | some x => if x.rcb.modef.getLsbD 1 then (x.seq.setWidth 64 <<< 32) ||| x.rcb.quantum.setWidth 64 else 0
  | none => 0

/-- CASKRF: the next refresh window of the reader's die that has not begun (07 R171, 00 R4). -/
def State.caskrf (s : State) (core : Nat) : W64 :=
  if s.hasCask then
    let base := 500 * dieOf core
    let m := (s.quarters - 4 * base + 3999) / 4000
    BitVec.ofNat 64 (m % 32 * 2 ^ 56 + (base + 1000 * m))
  else 0x00FF_FFFF_FFFF_FFFF

/-- FLAGSUM.LIVE for a region in a supergroup: the flags of its running handlers as they stood 64 cycles ago (05 R112). -/
def State.liveFlags (s : State) (region : W32) (sg : Nat) : BitVec 5 :=
  (List.range 64).foldl (fun (f : BitVec 5) k =>
    match (s.coreAt (64 * sg + k)).flagHist.find? (fun e => decide (e.1 + 64 ≤ s.cycle)) with
    | some (_, r, b) => if r = some region then f ||| b else f
    | none => f) 0

def flagKey (region : W32) (sg : Nat) : Nat := region.toNat * 64 + sg

/-- FLAGSUM (05 Table 5-8). -/
def State.flagsum (s : State) (c : Core) (core : Nat) : W64 :=
  ((FMap.getD s.flagAcc (flagKey c.region (sgOf core)) 0).setWidth 64 <<< 8)
    ||| (s.liveFlags c.region (sgOf core)).setWidth 64

/-- FLAGS as the word being issued reads it: the flags of every earlier-issued float word (05 R110). -/
def Core.flagsRead (c : Core) : BitVec 5 :=
  (c.t.pendFlags.filter (fun e => decide (e.issued < c.iss.nom))).foldl (fun f (e : PendFlags) => f ||| e.bits) c.t.flags

/-- A stream's prefetch depth (13 Table 13-8). -/
def Thread.sdepth (t : Thread) (q : Nat) : W64 :=
  if h : q < 4 then ((t.streams[q]).map (fun x => BitVec.ofNat 64 x.depth)).getD 0 else 0

/-- The view of a CSR at the level of the core (06 R132, Table 6-1), as a word of the slot reads it: with what the slot itself
changes as it was before (02 R41). -/
def State.csrView (s : State) (core : Nat) (n : Nat) : W64 :=
  let c := s.coreAt core
  let sup (x : W64) : W64 := if c.pl = 0 then 0 else x
  let mach (x : W64) : W64 := if c.pl = 2 then x else 0
  match n with
  | 0x000 => s.ctl c
  | 0x001 => s.caps
  | 0x002 => c.flagsRead.setWidth 64
  | 0x003 => c.iss.rmode
  | 0x004 => c.t.vtt
  | 0x005 => c.t.scaleb.setWidth 64
  | 0x006 => c.iss.before.sdepth 0
  | 0x007 => c.iss.before.sdepth 1
  | 0x008 => c.iss.before.sdepth 2
  | 0x009 => c.iss.before.sdepth 3
  | 0x00A => c.lane.setWidth 64
  | 0x00B => c.cordsz.setWidth 64
  | 0x00C => c.ctxid.setWidth 64
  | 0x00D => (bit64 c.supv <<< 32) ||| c.region.setWidth 64
  | 0x00E => c.t.w.setWidth 64
  | 0x00F => c.iss.ternbad.setWidth 64
  | 0x010 => s.quantum c
  | 0x011 => s.caskrf core
  | 0x012 => BitVec.ofNat 64 s.time
  | 0x013 => BitVec.ofNat 64 s.cycle
  | 0x014 => c.iss.instret
  | 0x100 => sup c.tvec
  | 0x101 => sup c.tcause
  | 0x102 => sup c.tval
  | 0x103 => sup c.tpc
  | 0x104 => sup (s.flagsum c core)
  | 0x105 => sup (((s.ctxOf c).map (fun x => x.voidcnt.setWidth 64)).getD 0)
  | 0x106 => sup c.sscratch
  | 0x200 => mach c.mvec
  | 0x201 => mach c.mscratch
  | _ => 0

/-- What a write of RMODE stores (05 Table 5-7). -/
def rmodeStored (x : W64) : W64 :=
  let mode := x.extractLsb' 0 3
  (x &&& 0xFFFF_FFFF_0000_0070) ||| (if mode = 0 ∨ mode = 7 then 1 else mode.setWidth 64)

/-- What a write of one type slot of VTT stores (13 R299). -/
def slotStored (x : W64) (k : Nat) : W64 :=
  let b := x >>> (8 * k)
  let ty := b.extractLsb' 0 4
  ((b &&& 0x30) ||| (if 10 ≤ ty.toNat then 0 else ty.setWidth 64)) <<< (8 * k)
/-- What a write of VTT stores (13 Table 13-1). -/
def vttStored (x : W64) : W64 :=
  (x &&& 0x1_0000_0000) ||| slotStored x 0 ||| slotStored x 1 ||| slotStored x 2 ||| slotStored x 3

/-- What a write of TCAUSE stores at a level (06 R137). -/
def tcauseStored (x : W64) (pl : BitVec 2) : W64 :=
  let ppl := x.extractLsb' 20 2
  (x &&& 0xFFC0_00FF) ||| ((if pl < ppl then pl else ppl).setWidth 64 <<< 20)

/-- The core after a CSR write (06 R132, Table 6-1): fields that are read-only or masked keep their value. -/
def Core.csrWrite (c : Core) (n : Nat) (x : W64) : Core :=
  let sup (f : Core) : Core := if c.pl = 0 then c else f
  let mach (f : Core) : Core := if c.pl = 2 then f else c
  match n with
  | 0x000 =>
    let hp := x.extractLsb' 2 2
    let c := { c with t := { c.t with homepol := if hp = 3 then 0 else hp } }
    if c.pl = 0 then c else { c with dzt := x.getLsbD 1, check := x.getLsbD 0 }
  | 0x002 =>
    { c with t := { c.t with
        flags := x.extractLsb' 0 5
        pendFlags := c.t.pendFlags.filter (fun e => !decide (e.issued < c.iss.nom)) } }
  | 0x003 => { c with t := { c.t with rmode := rmodeStored x } }
  | 0x004 => { c with t := { c.t with vtt := vttStored x } }
  | 0x005 => { c with t := { c.t with scaleb := x.extractLsb' 0 16 } }
  | 0x00D =>
    if c.pl = 2 ∧ c.ctxid = 0 then { c with region := x.extractLsb' 0 32, supv := x.getLsbD 32 } else c
  | 0x00F => sup { c with ternbad := x.extractLsb' 0 32 }
  | 0x100 => sup { c with tvec := x &&& 0x00FF_FFFF_FFFF_FFF8 }
  | 0x101 => sup { c with tcause := tcauseStored x c.pl }
  | 0x102 => sup { c with tval := x }
  | 0x103 => sup { c with tpc := x &&& 0x00FF_FFFF_FFFF_FFFF }
  | 0x106 => sup { c with sscratch := x }
  | 0x200 => mach { c with mvec := x &&& 0x00FF_FFFF_FFFF_FFF8 }
  | 0x201 => mach { c with mscratch := x }
  | _ => c

/-- The state after the current core writes a CSR; a write of ones to FLAGSUM.ACC clears those bits (05 R112). -/
def State.csrWrite (s : State) (n : Nat) (x : W64) : State :=
  if n = 0x104 then
    if s.cur.pl = 0 then s
    else
      let k := flagKey s.cur.region (sgOf s.ev.core)
      let new := (s.flagNew.filter (fun e => decide (e.1 = k) && decide (e.2.1 = s.cycle))).foldl (fun (f : BitVec 5) e => f ||| e.2.2) 0
      { s with flagAcc := FMap.put s.flagAcc k ((FMap.getD s.flagAcc k 0 &&& ~~~(x.extractLsb' 8 5)) ||| new) }
  else s.modCur (fun c => c.csrWrite n x)

/-- A CSR word waits: FLAGS for an earlier `fdiv` or `fsqrt` (05 R110), a write above user level for every earlier word that
can still fault (06 R141). -/
def Core.csrWaits (c : Core) (n : Nat) (write : Bool) : Bool :=
  (decide (n = 2) && (match c.t.div with | some d => d.float && decide (d.issued < c.iss.nom) | none => false))
    || (write && decide (c.pl ≠ 0) && c.uncleared)

/-- The cycles that an access to FLAGS holds the core for earlier float words whose results are not visible (05 R110, 03 R57):
what is missing of their latencies (log entry 53). -/
def Core.flagsDelay (c : Core) : Nat :=
  (c.t.pendFlags.filter (fun e => decide (e.issued < c.iss.nom))).foldl (fun d e => max d (e.visible - c.iss.nom)) 0
/-- The core after an access to a CSR: FLAGS is interlocked, and the next slot comes later by its wait. -/
def State.csrDelay (s : State) (n : Nat) : State :=
  if n = 2 ∧ s.cur.flagsDelay ≠ 0 then s.modCur (fun c => { c with ready := s.cycle + c.flagsDelay + 1 + c.iss.stall }) else s

/-- The destination of a CSR read: visible at latency 1, or interlocked for FLAGS (06 R153). -/
def csrLat (n : Nat) : Nat := if n = 2 then 0 else 1

def execCsrr (d : BitVec 5) (c : BitVec 10) (s : State) : Host.Outcome State Fault Refusal :=
  runWord (.csrr d c) s (fun s =>
    if s.cur.csrWaits c.toNat false then .wait s
    else .ok ((s.csrDelay c.toNat).outS d (s.csrView s.ev.core c.toNat) (csrLat c.toNat)))

def execCsrw (a : BitVec 5) (c : BitVec 10) (s : State) : Host.Outcome State Fault Refusal :=
  runWord (.csrw a c) s (fun s =>
    if s.cur.csrWaits c.toNat true then .wait s
    else .ok ((s.csrDelay c.toNat).csrWrite c.toNat (s.rs a)))

def execCsrx (d a : BitVec 5) (c : BitVec 10) (s : State) : Host.Outcome State Fault Refusal :=
  runWord (.csrx d a c) s (fun s =>
    if s.cur.csrWaits c.toNat true then .wait s
    else .ok (((s.csrDelay c.toNat).csrWrite c.toNat (s.rs a)).outS d (s.csrView s.ev.core c.toNat) (csrLat c.toNat)))

end Sys2Proof.Machine
end

