-- ==== Sys2Proof/Machine/Regs.lean ====
section
/-!
DEFINITION. Authority in the region tree (06 R158), queue handles (09 R232, R234), and the register window: the queue
status (09 R236) and the device registers (17 Table 17-1).
-/
namespace Sys2Proof.Machine

/-- Machine level, or a supervisor core (SUPV = 1) by its REGION, has authority over a region, named by its CTXID and those of its
ancestors (06 R139, R158). Region 0 is none. -/
def Core.governs (c : Core) (lineage : List Nat) : Bool :=
  decide (c.pl = 2) || (c.supv && decide (c.region ≠ 0) && lineage.contains c.region.toNat)
/-- Authority over a context. -/
def Core.authority (c : Core) (y : Ctx) : Bool := c.governs y.lineage

/-- The key of a queue descriptor: slice × 1,024 + index (09 Table 9-8). -/
def queueKey (h : W32) : Nat := (h.extractLsb' 12 20).toNat
/-- The live queue that a handle names; none where it is stale (09 R232). -/
def State.queueOf (s : State) (h : W32) : Option Queue :=
  if 64 ≤ (h.extractLsb' 22 10).toNat then none
  else match FMap.get? s.queues (queueKey h) with
    | some q => if q.live && decide (q.gen = h.extractLsb' 0 12) then some q else none
    | none => none

/-- A core may act on a queue (09 R234). -/
def State.mayUse (s : State) (c : Core) (q : Queue) : Bool :=
  if c.pl = 0 then
    decide (c.ctxid = q.owner) ||
      (match s.ctx? c.ctxid.toNat, s.ctx? q.owner.toNat with
       | some x, some y => decide (x.rcb.qshare ≠ 0) && decide (x.rcb.qshare = y.rcb.qshare)
       | _, _ => false)
  else match s.ctx? q.owner.toNat with
    | some y => c.authority y
    | none => decide (c.pl = 2)

/-- A doubleword of the queue status window as a core reads it (09 Table 9-17). -/
def State.qstat (s : State) (c : Core) (off : Nat) : W64 :=
  let h : W32 := BitVec.ofNat 32 ((off - 0x1000_0000_0000) / 16)
  let second : Bool := decide (8 ≤ off % 16)
  match s.queueOf h with
  | some q =>
    if s.mayUse c q then
      if second then (bit64 (!q.watch.isEmpty) <<< 16) ||| BitVec.ofNat 64 (q.sleepers.length % 65536)
      else BitVec.ofNat 64 (q.k * 2 ^ 32 + (q.tail - q.head))
    else if second then 0 else 0x8000_0000_0000_0000
  | none => if second then 0 else 0x8000_0000_0000_0000

/-- The value of a device register. -/
def State.devLoad (s : State) (off : Nat) : W64 :=
  let o := off / 8 * 8
  if o = 0x1_0000_0100 then s.trigstat
  else if o = 0x2_0000_0000 then (bit64 s.scrubBusy <<< 63) ||| (bit64 s.scrubErr <<< 62) ||| s.scrubCur.setWidth 64
  else if o = 0x2_0000_0008 then s.scrubEnd.setWidth 64
  else if o = 0x2_0000_0010 then s.scrubPend
  else if o = 0x3_0000_0000 then s.lcstate.setWidth 64
  else if o = 0x4_0000_0000 then s.isolate
  else if o = 0x8000_0000_0000 then s.walkroot
  else if 0x5_0000_0000 ≤ o ∧ o < 0x5_0000_0000 + 8 * 19 then
    let l := FMap.getD s.links ((o - 0x5_0000_0000) / 8) Link.reset
    (bit64 l.keydue <<< 1) ||| bit64 l.down
  else if 0x6_0000_0000 ≤ o ∧ o < 0x6_0000_0000 + 32 * 1024 then
    let r := FMap.getD s.redcfg ((o - 0x6_0000_0000) / 32) RedCfg.reset
    let f := o % 32 / 8
    if f = 0 then r.ctrl else if f = 1 then r.rbase else if f = 2 then r.mlist else r.state.setWidth 64
  else 0

/-- A doubleword of the register window as a core reads it. -/
def State.regLoad (s : State) (c : Core) (off : Nat) : W64 :=
  if inQstat off then s.qstat c off else s.devLoad off

/-- What a core's write to a device register does. -/
inductive RegWrite where
  | plain (s : State)
  | lcstate
  | isolate
  | redcfg (group field : Nat)
  deriving DecidableEq, Repr

/-- A write to a register without behaviour of its own, or the step that the register has (17 Table 17-1). -/
def State.regWrite (s : State) (off : Nat) (x : W64) : RegWrite :=
  let o := off / 8 * 8
  if o = 0x2_0000_0010 then .plain { s with scrubPend := x &&& 0x80FF_FFFF_FFFF_FFFF }
  else if o = 0x8000_0000_0000 then .plain { s with walkroot := x &&& 0xF0FF_FFFF_FFF0_0000 }
  else if o = 0x3_0000_0000 then .lcstate
  else if o = 0x4_0000_0000 then .isolate
  else if 0x6_0000_0000 ≤ o ∧ o < 0x6_0000_0000 + 32 * 1024 then
    .redcfg ((o - 0x6_0000_0000) / 32) (o % 32 / 8)
  else .plain s

end Sys2Proof.Machine
end

