-- ==== Sys2Proof/Machine/Order.lean ====
section
/-!
DEFINITION. Memory accesses on their way: what orders them (08), performing them at their home (07 R186, R189), faults
after later words have issued (06 R141) and threads that move (07 R176, R177, R183).
-/
namespace Sys2Proof.Machine

/-! ## Sequencers (08 R199-R201) -/

/-- The key of a sequencer: device, slice and index of an identifier. -/
def seqrKey (id : W32) : Nat := (id.extractLsb' 4 28).toNat
def State.seqr (s : State) (id : W32) : Seqr := FMap.getD s.seqrs (seqrKey id) Seqr.reset
/-- A sequencer is freed once it has no holder and every ticket it gave is performed. -/
def Seqr.settle (q : Seqr) : Seqr :=
  if q.alloc && decide (q.holders = 0) && q.opens.isEmpty then
    { Seqr.reset with gen := if q.gen = 15 then 1 else q.gen + 1 }
  else q
def State.setSeqr (s : State) (id : W32) (q : Seqr) : State := { s with seqrs := FMap.put s.seqrs (seqrKey id) q.settle }
/-- Adds a holder, or takes one away (08 R201). -/
def State.holdHandle (s : State) (id : W32) : State :=
  let q := s.seqr id
  s.setSeqr id { q with holders := q.holders + 1 }
def State.releaseHandle (s : State) (id : W32) : State :=
  let q := s.seqr id
  if q.alloc ∧ q.gen = id.extractLsb' 0 4 then s.setSeqr id { q with holders := q.holders - 1 } else s
/-- Gives the next ticket of a sequencer. -/
def State.nextTicket (s : State) (id : W32) : Nat × State :=
  let q := s.seqr id
  (q.next, s.setSeqr id { q with next := q.next + 1, opens := q.opens ++ [q.next] })
/-- A ticket is performed. -/
def State.closeTicket (s : State) (h : Option Handle) (t : Option Nat) : State :=
  match h, t with
  | some h, some t =>
    let q := s.seqr h.id
    s.setSeqr h.id { q with opens := q.opens.filter (· ≠ t) }
  | _, _ => s
/-- Every earlier ticket of the access's handle has been performed (08 R200). -/
def State.ticketTurn (s : State) (h : Option Handle) (t : Option Nat) : Bool :=
  match h, t with
  | some h, some t => (s.seqr h.id).opens.all (fun o => decide (t ≤ o))
  | some _, none => false
  | none, _ => true

/-- The first access of a core's list that waits for a ticket, with its place. -/
def Core.needsTicket (c : Core) (id : W32) : Option (Nat × Access) :=
  findAt (fun (x : Access) => x.ticket.isNone && (match x.handle with | some h => decide (h.id = id) | none => false)) c.mem 0
/-- The requests of a core's accesses under a handle reach the sequencer, in issue order. -/
def State.ticketAll (s : State) (n : Nat) (id : W32) : Nat → State
  | 0 => s
  | fuel + 1 =>
    match (s.coreAt n).needsTicket id with
    | none => s
    | some (k, x) =>
      let (t, s') := s.nextTicket id
      State.ticketAll (s'.modCore n (fun c => { c with mem := setAt c.mem k { x with ticket := some t } })) n id fuel
/-- The sequencer lies on another device (08 Table 8-3). -/
def State.foreign (s : State) (id : W32) : Bool := decide ((id.extractLsb' 18 14).toNat ≠ s.devid)
/-- The requests of core `n` under a handle that have issued reach the sequencer; another device's gives its tickets itself
(HANDLE_TICKET). -/
def State.ticketed (s : State) (n : Nat) (id : W32) : State :=
  if s.foreign id then s else s.ticketAll n id (s.coreAt n).mem.length
/-- The scope of a handle as its sequencer has it; one of another device is a free value (08 R199, 09 R246, log entry 51). -/
def State.scopeOf (s : State) (id : W32) : Scope :=
  if s.foreign id then Scope.ofBits (Config.foreignScope id) else (s.seqr id).scope

/-! ## What an access is -/

def Access.isLoad (x : Access) : Bool := match x.kind with | .load | .waita => true | _ => false
def Access.isStore (x : Access) : Bool := match x.kind with | .store => true | _ => false
def Access.isAtomic (x : Access) : Bool := match x.kind with | .atomic _ | .vatomic _ _ _ _ => true | _ => false
def Access.isJoin (x : Access) : Bool := match x.kind with | .join | .unhold _ => true | _ => false
/-- Vector work (07 R176). -/
def Access.isVector (x : Access) : Bool :=
  match x.kind, x.form with
  | .vatomic _ _ _ _, _ | _, .vec _ | _, .lane _ _ => true
  | _, _ => false
/-- Orders later accesses after itself (08 R203). -/
def Access.acquires (x : Access) : Bool := decide (x.ord = .acq) || decide (x.ord = .acqrel)
def Access.releases (x : Access) : Bool := decide (x.ord = .rel) || decide (x.ord = .acqrel)
/-- Reads ternary codes, which it counts (05 R100). -/
def Access.counts (x : Access) : Bool := match x.form with | .vec f => decide (f = 5) | _ => false
def Access.overlaps (x y : Access) : Bool := x.bytes.any (fun b => y.bytes.contains b)

/-- A core's stores that are not acknowledged (07 R186). -/
def Core.unacked (c : Core) : Nat := (c.mem.filter Access.isStore).length

/-- The physical place of a paged line: as it is cached, else as it is mapped. -/
def State.lineAt (s : State) (va : Nat) : Option Nat :=
  match s.window (BitVec.ofNat 64 va) with
  | .paged => match FMap.get? s.cache (va / 64) with
    | some l => some l.pa
    | none => match s.walk va with | .ok pa => some pa | _ => none
  | _ => none
/-- The device that a paged line belongs to, where it is another one (07 Table 7-6, LOC 5). -/
def State.lineDev (s : State) (va : Nat) : Option Nat :=
  (s.lineAt va).bind (fun p => if spaceOf p = 5 then some (offOf p / 2 ^ 42) else none)
/-- A paged line lies in host memory (LOC 4). -/
def State.lineHost (s : State) (va : Nat) : Bool := ((s.lineAt va).map (fun p => decide (spaceOf p = 4))).getD false

/-- The bank of a location (08 R198). The register window is one bank, for which the rule names none (log entry 50). -/
def State.bankOf (s : State) (c : Core) (loc : Nat) : Nat :=
  let off := offOf loc
  if spaceOf loc = spSpad then off / 2 ^ 16 * 16 + off / 4 % 16
  else if spaceOf loc = spRemote then 2 ^ 40 + off / 2 ^ 16 * 16 + off / 4 % 16
  else match s.window (BitVec.ofNat 64 off) with
    | .regs _ => 2 ^ 33
    | _ => match s.lineDev off with
      | some dev => 2 ^ 36 + dev * 64 + s.homeSlice off
      | none => match s.ctxOf c with
        | some x => 2 ^ 34 + x.homeCore off
        | none => 2 ^ 35 + s.homeSlice off
def State.sameBank (s : State) (c : Core) (x y : Access) : Bool :=
  let bs := (y.bytes.map (s.bankOf c)).eraseDups
  (x.bytes.map (s.bankOf c)).eraseDups.any (fun b => bs.contains b)

/-- The earlier access `e` of its thread keeps `x` from being performed: same bytes, one bank under h0, an acquire or a
release (08 R196, R198, R203). A load reads its thread's own stores that are not yet performed (07 R186), and in a
deterministic region it does not wait for held stores (12 R283). -/
def State.blocks (s : State) (c : Core) (e x : Access) : Bool :=
  if e.performed || e.isJoin then false
  else
    let own : Bool := x.isLoad && e.isStore && e.overlaps x
    let free : Bool := x.isLoad && e.held
    (e.overlaps x && !own)
      || (!free && ((e.handle.isNone && x.handle.isNone && !own && s.sameBank c e x)
        || e.acquires || x.releases))

/-- A bank group is within its refresh window (07 R170). -/
def State.inRefresh (s : State) (die g : Nat) : Bool :=
  decide (1000 * g + 500 * die ≤ s.time) && decide ((s.time - (1000 * g + 500 * die)) % 32000 < 160)

/-- The Lernu ports that a packet for a device may take: that of its route, and where that is down the others that route to it
(17 R369, R373). -/
def State.portsTo (s : State) (dev : Nat) : List Nat :=
  let up (p : Nat) : Bool := !(FMap.getD s.links p Link.reset).down
  let p := Config.route dev % 18
  if up p then [p] else (List.range 18).filter (fun q => decide (q ≠ p) && up q && Config.routes q dev)
/-- The transmitter sends: it is up, and its key has invocations left (17 R372, R373). -/
def Link.sends (l : Link) : Bool := !l.down && !l.holding && decide (l.count < 2 ^ 48)
/-- The port that a packet for the device leaves through now. -/
def State.portNow (s : State) (dev : Nat) : Option Nat := (s.portsTo dev).find? (fun p => (FMap.getD s.links p Link.reset).sends)
/-- A port to the device sends. -/
def State.linkOpen (s : State) (dev : Nat) : Bool := (s.portNow dev).isSome
/-- A flit for the device crosses its link (17 R372). DESIGN CHOICE (log entry 57): an access or a message takes one flit; `Act.flit`
makes the others. -/
def State.cross (s : State) (dev : Nat) : State :=
  match s.portNow dev with
  | some p =>
    let l := FMap.getD s.links p Link.reset
    { s with links := FMap.put s.links p { l with count := l.count + 1 } }
  | none => s
/-- The other device that a location belongs to. -/
def State.awayAt (s : State) (loc : Nat) : Option Nat :=
  if spaceOf loc = spRemote then some (offOf loc / 2 ^ 28) else if spaceOf loc = spVirt then s.lineDev (offOf loc) else none

/-- The location waits: its cask bank group is in refresh (07 R170), its slice is isolated (17 R381),
or no link to its device is open (17 R372). -/
def State.blockedPlace (s : State) (loc : Nat) : Bool :=
  if spaceOf loc = spVirt then
    match s.window (BitVec.ofNat 64 (offOf loc)) with
    | .cask die off => s.inRefresh die (off / 64 % 32) || s.refresh.contains (die * 32 + off / 64 % 32) || s.isolated.contains (s.homeSlice (offOf loc))
    | .paged => s.isolated.contains (s.homeSlice (offOf loc)) || ((s.lineDev (offOf loc)).map (fun d => !s.linkOpen d)).getD false
        || (!(FMap.getD s.links 18 Link.reset).sends && s.lineHost (offOf loc))
    | _ => false
  else if spaceOf loc = spRemote then !s.linkOpen (offOf loc / 2 ^ 28)
  else false

/-- The links after an access of some locations: its flit crosses to the device or the host that they belong to, but for a read that
a cached copy serves. -/
def State.linksAfter (s : State) (locs : List Nat) (copy : Bool) : FMap Link :=
  let cached := (locs.find? (fun l => decide (spaceOf l = spVirt))).bind (fun l => FMap.get? s.cache (offOf l / 64))
  if copy && cached.isSome then s.links
  else match locs.findSome? s.awayAt with
    | some dev => (s.cross dev).links
    | none =>
      if locs.any (fun l => decide (spaceOf l = spVirt) && s.lineHost (offOf l)) then
        let l := FMap.getD s.links 18 Link.reset
        FMap.put s.links 18 { l with count := l.count + 1 }
      else s.links

/-- The members of a core's cordon, itself first where it leads (12 R285). -/
def State.cordonOf (s : State) (n : Nat) : List Nat :=
  let lead := (s.coreAt n).leader.getD n
  lead :: (s.coreAt lead).members

/-! ## Performing -/

/-- How performing an access ends. -/
inductive Perf where
  /-- the bytes it returns -/
  | done (vals : List Byte) (s : State)
  | wait
  | park (pte : Nat)
  | fault (code : BitVec 8) (tval : W64)
  deriving DecidableEq, Repr

/-- The thread's own store to a byte that a load reads instead of memory (07 R186). -/
def ownByte (earlier : List Access) (loc : Nat) : Option Byte :=
  (earlier.reverse.find? (fun e => e.isStore && !e.performed && e.bytes.contains loc)).bind
    (fun e => (e.bytes.zip e.data).findSome? (fun (l, b) => if l = loc then some b else none))

/-- The virtual line of some locations, where they are of paged or cask memory. -/
def lineOf (locs : List Nat) : Option Nat := (locs.find? (fun l => decide (spaceOf l = spVirt))).map (fun l => offOf l / 64)

/-- The visitor copy of a line is given up. -/
def State.dropCopy (s : State) (line : Nat) : State :=
  match FMap.get? s.cache line with
  | some l => if spaceOf l.pa = 5 then s.evict line else s
  | none => s

/-- Names a thread: its run, or the core of a handler that no start has begun. -/
def threadKey (n run : Nat) : Nat := if run = 0 then n else 4096 + run
/-- The thread of an access of core `n`. -/
def Access.thread (x : Access) (n : Nat) : Nat := threadKey n x.before.run

/-- The copy is of the line of some locations. -/
def Visitor.holds (v : Visitor) (locs : List Nat) : Bool := decide (some v.line = lineOf locs)
/-- A thread has a later value of some locations, and reads them in the copy no more (08 R196). -/
def Visitor.pass (v : Visitor) (th : Nat) (locs : List Nat) : Visitor :=
  if v.holds locs then { v with past := v.past ++ (locs.map (fun l => (th, l))).filter (fun e => !v.past.contains e) } else v
/-- The old copy of a line that a thread's load below system scope reads on a die (08 R205). -/
def State.oldCopy (s : State) (die th : Nat) (locs : List Nat) : Option Visitor :=
  s.stale.find? (fun v => decide (v.die = die) && v.holds locs && locs.all (fun l => !v.past.contains (th, l)))
/-- A thread has read locations in the copy `used`, or at their home: the copies that became old before are past for it (08
R196). -/
def State.see (s : State) (th : Nat) (locs : List Nat) (used : Option Visitor) : State :=
  let n := match used with
    | some v => (s.stale.takeWhile (fun e => decide (e ≠ v))).length
    | none => s.stale.length
  { s with stale := (s.stale.take n).map (fun v => v.pass th locs) ++ s.stale.drop n }
/-- The dies whose visitor portions can hold a copy. -/
def State.dies (s : State) : List Nat := if s.die1 then [0, 1] else [0]
/-- The visitor copies of a line as they were before a write, where no older ones stand. -/
def State.agedCopies (s : State) (l : Line) (line : Nat) (ws : List Writer) : List Visitor :=
  if spaceOf l.pa = 5 then
    (s.dies.filter (fun d => !s.stale.any (fun v => decide (v.die = d) && decide (v.line = line)))).map
      (fun d => { die := d, line := line, data := l.data, writers := ws, past := [] })
  else []

/-- A write to a line of another device is made there, and invalidates the visitor copies (08 R205): all of them where it is at
system scope. A store below it, `by_`, waits for none: the copies that `old` has stay until their invalidations arrive, and its own
thread reads them no more. -/
def State.invalidate (s : State) (by_ : Option Writer) (old : FMap Line) (locs : List Nat) : State :=
  match lineOf locs with
  | none => s
  | some line =>
    match by_ with
    | none => { s.dropCopy line with stale := s.stale.filter (fun v => decide (v.line ≠ line)) }
    | some w =>
      let was := s.stale.map (fun v => if v.line = line then { v with writers := v.writers ++ [w] } else v)
      let more := match FMap.get? old line with
        | some l => s.agedCopies l line [w]
        | none => []
      ({ s.dropCopy line with stale := was ++ more } : State).see w.thread locs none

/-- Every visitor copy of the line of some locations is given up. -/
def State.dropVisitor (s : State) (locs : List Nat) : State := s.invalidate none s.cache locs

/-- The stores that `p` names are performed at system scope now: every visitor copy that is older than one of them has been
invalidated (08 R205). -/
def State.reach (s : State) (p : Writer → Bool) : State := { s with stale := s.stale.filter (fun v => !v.writers.any p) }
/-- The store was made under a handle. -/
def Writer.under (w : Writer) (id : W32) : Bool := match w.ticket with | some (i, _) => decide (i = id) | none => false
/-- What has been performed at system scope once access `x` of core `n` is: for a release at that scope every earlier store of its
thread (08 R203), and under a handle of that scope every one with an earlier ticket (08 R200). -/
def State.reachFor (s : State) (n : Nat) (x : Access) : State :=
  let s := if x.releases ∧ x.scope = .sys then s.reach (fun w => decide (w.thread = x.thread n)) else s
  match x.handle with
  | some h => if h.scope = .sys then s.reach (fun w => w.under h.id) else s
  | none => s

/-- Reads at system scope: a visitor copy is skipped, and the line is read at its device (08 R205). -/
def State.readSys (s : State) (locs : List Nat) (hint : Hint) (l1 : Option Nat) : ReadEnd :=
  match (lineOf locs).bind (fun line => (FMap.get? s.cache line).map (fun l => (line, l))) with
  | some (line, l) =>
    if spaceOf l.pa = 5 then
      match ({ s with cache := FMap.erase s.cache line } : State).readLocs locs .bypass none with
      | .ok bs _ => .ok bs s
      | e => e
    else s.readLocs locs hint l1
  | none => s.readLocs locs hint l1

/-- The register offset of an access to the register window. -/
def State.regOff? (s : State) (a : W64) : Option Nat :=
  match s.window a with
  | .regs off => some off
  | _ => none

/-- The L1 that a core's access may allocate in (07 R175). -/
def State.l1For (s : State) (c : Core) (a : W64) : Option Nat := (s.ctxOf c).map (fun x => x.homeCore a.toNat)

/-- Reads locations for an access at its scope: a load below system scope in an old visitor copy of its die, where its thread can
(08 R196, R205), any other access at the line's home. -/
def State.readAt (s : State) (n : Nat) (x : Access) (locs : List Nat) : ReadEnd :=
  let l1 := s.l1For (s.coreAt n) x.addr
  let seen (e : ReadEnd) : ReadEnd := match e with
    | .ok bs s' => .ok bs { s'.see (x.thread n) locs none with links := s.linksAfter locs (decide (x.scope ≠ .sys)) }
    | e => e
  if x.isLoad && decide (x.scope ≠ .sys) then
    match s.oldCopy (dieOf n) (x.thread n) locs with
    | some v => .ok (locs.map (fun l => v.data.extractLsb' (8 * (l % 64)) 8)) (s.see (x.thread n) locs (some v))
    | none => seen (s.readLocs locs x.hint l1)
  else seen (s.readSys locs x.hint l1)

/-- Reads the bytes of an access, its thread's own stores first. -/
def State.readAccess (s : State) (n : Nat) (x : Access) (earlier : List Access) : Perf :=
  let c := s.coreAt n
  match s.regOff? x.addr with
  | some off => .done (toBytes 8 (s.regLoad c off).toNat) s
  | none =>
    let own := x.bytes.map (ownByte earlier)
    let rest := (x.bytes.zip own).filterMap (fun (l, o) => if o.isNone then some l else none)
    match s.readAt n x rest with
    | .invalid p => .park p
    | .stop code => .fault code (faultTval code x.addr)
    | .ok bs s' =>
      let vals := (x.bytes.zip own).foldl (fun (acc : List Byte × List Byte) (p : Nat × Option Byte) =>
        match p.2, acc.2 with
        | some b, r => (acc.1 ++ [b], r)
        | none, b :: r => (acc.1 ++ [b], r)
        | none, [] => (acc.1 ++ [0], [])) (([] : List Byte), bs)
      .done vals.1 s'

/-- The die of a cask store that the cask has not accepted and that finds it sealed (15 R356). -/
def State.sealedNow (s : State) (x : Access) : Bool :=
  match s.window x.addr with
  | .cask die _ => !x.cleared && !s.caskOpen.getLsbD die
  | _ => false

/-- Writes the bytes of an access. -/
def State.writeAccess (s : State) (n : Nat) (x : Access) (locs : List Nat) (bs : List Byte) : Perf :=
  if s.sealedNow x then .fault cCaskSealed x.addr
  else match s.writeLocs locs bs x.hint (s.l1For (s.coreAt n) x.addr) with
  | .invalid p => .park p
  | .stop code => .fault code (faultTval code x.addr)
  | .ok _ s' =>
    let w : Writer := { thread := x.thread n, core := n, tag := x.tag,
                        ticket := match x.handle, x.ticket with | some h, some t => some (h.id, t) | _, _ => none }
    .done [] { s'.invalidate (if x.scope = .sys then none else some w) s.cache locs with links := s.linksAfter locs false }

/-- The new value of an atomic (07 R189). -/
def amoNew (op : Nat) (old d d2 : W64) : W64 :=
  match op with
  | 0 => old + d
  | 1 => old &&& d
  | 2 => old ||| d
  | 3 => old ^^^ d
  | 4 => if d.slt old then old else d
  | 5 => if old.slt d then old else d
  | 6 => if d.ult old then old else d
  | 7 => if old.ult d then old else d
  | 8 => d
  | _ => if old = d then d2 else old

/-- The greater and the lesser of two signed lanes of `w` bytes. -/
def minLane (w : Nat) (x y : Nat) : Nat := if sxBits (8 * w) y < sxBits (8 * w) x then y else x
def maxLane (w : Nat) (x y : Nat) : Nat := if sxBits (8 * w) x < sxBits (8 * w) y then y else x

/-- A lane of a vector atomic (13 Table 13-6): or, add, min, max. -/
def vamoLane (op w x y : Nat) : Nat :=
  match op with
  | 0 => x ||| y
  | 1 => (x + y) % 2 ^ (8 * w)
  | 2 => minLane w x y
  | _ => maxLane w x y

/-- Cuts bytes into lanes of `w`. -/
def lanesOf (w : Nat) (bs : List Byte) : List Nat := (List.range (bs.length / w)).map (fun i => ofBytes ((bs.drop (i * w)).take w))

/-- The line of some locations is recalled from an L1 to its slice, where an atomic is performed (07 R189). -/
def State.recall (s : State) (locs : List Nat) : State :=
  match lineOf locs with
  | some line => match FMap.get? s.cache line with
    | some l => { s with cache := FMap.put s.cache line { l with l1 := none } }
    | none => s
  | none => s

/-- Performs an access at its home, after what its scope and its handle's put before it. A store to a device register is a step of
its own. -/
def State.perform (s : State) (n : Nat) (x : Access) (earlier : List Access) : Perf :=
  let s := s.reachFor n x
  match x.kind with
  | .load | .waita => s.readAccess n x earlier
  | .store => if (s.regOff? x.addr).isSome then .wait else s.writeAccess n x x.bytes x.data
  | .atomic op =>
    match s.readAccess n x earlier with
    | .done vals s' =>
      match s'.writeAccess n x x.bytes
        (toBytes 8 (amoNew op (BitVec.ofNat 64 (ofBytes vals)) (BitVec.ofNat 64 (ofBytes x.data)) x.data2).toNat) with
      | .done _ s'' => .done vals (s''.recall x.bytes)
      | e => e
    | e => e
  | .vatomic op w pred _ =>
    match s.readAccess n x earlier with
    | .done vals s' =>
      let new := ((lanesOf w vals).zip (lanesOf w x.data)).mapIdx (fun i (p : Nat × Nat) =>
        if pred.getLsbD i then vamoLane op w p.1 p.2 else p.1)
      match s'.writeAccess n x x.bytes ((new.map (toBytes w)).flatten) with
      | .done _ s'' => .done vals (s''.recall x.bytes)
      | e => e
    | e => e
  | .join | .unhold _ => .done [] s

/-! ## What may be performed -/

/-- An access of the core that has not cleared would fault, or park, as things stand. -/
def State.mayFault (s : State) (n : Nat) : Bool :=
  let c := s.coreAt n
  (c.mem.zip (List.range c.mem.length)).any (fun e =>
    !e.1.cleared && (e.1.parked.isSome || (match s.perform n e.1 (c.mem.take e.2) with | .fault _ _ | .park _ => true | _ => false)))
/-- No other member of the core's cordon has an access of the same slot that would fault: a cause in one traps them all (06
R144). A cordon's slot issues once every earlier one has cleared. -/
def State.othersSafe (s : State) (n : Nat) : Bool := (s.cordonOf n).all (fun m => decide (m = n) || !s.mayFault m)

/-- Every word before the one with this INSTRET has cleared, its strip pushed (06 R141, 13 R325). -/
def Core.clearedBefore (c : Core) (instret : W64) : Bool :=
  c.mem.all (fun e => e.cleared || decide (instret.toNat ≤ e.instret.toNat))
    && c.pushes.all (fun p => decide (instret.toNat ≤ p.instret.toNat))

/-- The access at place `k` of a core's list may be performed now. -/
def State.mayPerform (s : State) (n k : Nat) : Bool :=
  let c := s.coreAt n
  match c.mem[k]? with
  | none => false
  | some x =>
    let earlier := c.mem.take k
    !x.performed && !x.held && x.parked.isNone && earlier.all (fun e => !s.blocks c e x)
      && (s.ticketTurn x.handle x.ticket || (x.isLoad && s.isDet c))
      && ((x.isLoad && !x.counts) || (earlier.all (fun e => e.cleared) && c.clearedBefore x.instret))
      && (x.isLoad || s.othersSafe n)
      && !x.bytes.any s.blockedPlace
      && !(x.isAtomic && x.bytes.any (fun b => decide (spaceOf b = spVirt) && s.moving.contains (offOf b / 8192)))

/-! ## Values that return -/

/-- A change of the thread, and of every thread that a fault would restore. -/
def Core.mapThreads (c : Core) (f : Thread → Thread) : Core :=
  { c with t := f c.t
           mem := c.mem.map (fun (a : Access) => { a with before := f a.before })
           pushes := c.pushes.map (fun (p : Push) => { p with before := f p.before })
           iss := { c.iss with before := f c.iss.before } }
/-- A result for a stream register arrives. -/
def Push.arrive (p : Push) (tag : Nat) (m x : W512) (last : Bool) : Push :=
  if p.tag = tag ∧ p.visible = none then
    { p with val := (p.val &&& ~~~m) ||| (x &&& m), visible := if last then some p.issued else none } else p
/-- A value arrives for a tag, in the thread and in every thread that a fault would restore. -/
def Core.arriveAll (c : Core) (tag : Nat) (x : W512) : Core :=
  let c := c.mapThreads (fun t => t.arriveTag tag x)
  { c with pushes := c.pushes.map (fun p => p.arrive tag (BitVec.allOnes 512) x true) }

/-- Some bits of a register arrive (13 R321, R322); it is visible once the last have. -/
def Thread.mergeBits (t : Thread) (tag : Nat) (m x : W512) (last : Bool) : Thread :=
  { t with pend := t.pend.map (fun (e : Pending) =>
      if e.tag = tag ∧ e.visible = none then
        { e with val := (e.val &&& ~~~m) ||| (x &&& m), visible := if last then some e.issued else none }
      else e) }
def Core.mergeAll (c : Core) (tag : Nat) (m x : W512) (last : Bool) : Core :=
  let c := c.mapThreads (fun t => t.mergeBits tag m x last)
  { c with pushes := c.pushes.map (fun p => p.arrive tag m x last) }
/-- The bits of lane `i` of width `w` bytes. -/
def laneMask (w i : Nat) : W512 := BitVec.ofNat 512 ((2 ^ (8 * w) - 1) * 2 ^ (8 * w * i))
/-- The bits of the lanes that a predicate selects. -/
def predMask (w : Nat) (pred : W64) : W512 :=
  (List.range (64 / w)).foldl (fun m i => if pred.getLsbD i then m ||| laneMask w i else m) 0

/-- The register value of a load's bytes, and the count of ternary code 10. -/
def loadValue (form : LoadForm) (bs : List Byte) : W512 × Nat :=
  match form with
  | .zext => (BitVec.ofNat 512 (ofBytes bs), 0)
  | .sext => ((BitVec.ofInt 64 (sxBits (8 * bs.length) (ofBytes bs))).setWidth 512, 0)
  | .vec fmt => decodeWindow fmt bs
  | .lane _ _ => (BitVec.ofNat 512 (ofBytes bs), 0)

/-- The value of a performed access reaches its core. -/
def Core.deliver (c : Core) (x : Access) (vals : List Byte) : Core :=
  match x.kind with
  | .load =>
    match x.form with
    | .lane i w => c.mergeAll x.tag (laneMask w i) (BitVec.ofNat 512 (ofBytes vals * 2 ^ (8 * w * i)))
        (!c.mem.any (fun a => decide (a.tag = x.tag)))
    | f =>
      let r := loadValue f vals
      { c.arriveAll x.tag r.1 with ternbad := c.ternbad + BitVec.ofNat 32 r.2 }
  | .atomic _ => (c.arriveAll x.tag (loadValue .zext vals).1).arriveAll (x.tag + 1) (BitVec.ofNat 512 (2 ^ 64 - 1))
  | .vatomic _ w pred z =>
    let m := predMask w pred
    let v := BitVec.ofNat 512 (ofBytes vals) &&& m
    c.mergeAll x.tag (if z then BitVec.allOnes 512 else m) v true
  | .waita =>
    let v : W64 := BitVec.ofNat 64 (ofBytes vals)
    { c with txn := .waited v }
  | _ => c

/-- The access at place `k` is done: it leaves the list, its ticket is performed and its value arrives. -/
def State.complete (s : State) (n k : Nat) (x : Access) (vals : List Byte) : State :=
  ((s.modCore n (fun c => { c with mem := dropAt c.mem k })).closeTicket x.handle x.ticket).modCore n
    (fun c => c.deliver x vals)

/-! ## Faults after issue (06 R141) -/

/-- Drops accesses that were not performed, with their tickets. -/
def State.dropTickets (s : State) (xs : List Access) : State :=
  xs.foldl (fun s x => s.closeTicket x.handle x.ticket) s

/-- An access of a gather or scatter lane. -/
def Access.isLane (x : Access) : Bool := match x.form with | .lane _ _ => true | _ => false

/-- The gather or scatter with a tag, as the replay queue holds it: its unperformed lanes, and its destination so far (13 R329). -/
def Core.heldOf (c : Core) (tag : Nat) : Held :=
  let e := c.t.pend.find? (fun e => decide (e.tag = tag) && e.visible.isNone && decide (e.file = .v))
  let p := c.pushes.find? (fun p => decide (p.tag = tag) && p.visible.isNone)
  { tag := tag, dest := match e with | some e => some e.reg | none => p.map (·.reg)
    val := match e, p with | some e, _ => e.onto (c.t.finish.file .v e.reg) | none, some p => p.val | none, none => 0
    lanes := (c.mem.filter (fun a => decide (a.tag = tag) && a.isLane && (!a.performed || a.isLoad))).map
      (fun (a : Access) => { a with parked := none, cleared := false, performed := false, result := [] }) }

/-- The gathers and scatters whose lanes are not all performed are held in the replay queue; a gather's destination keeps its old
value (13 R329). -/
def Core.holdLanes (c : Core) : Core :=
  let out (a : Access) : Bool := a.isLane && (!a.performed || a.isLoad)
  (((c.mem.filter out).map (·.tag)).eraseDups).foldl (fun (c : Core) tag => { c with
    replay := c.replay ++ [c.heldOf tag]
    mem := c.mem.filter (fun a => !(decide (a.tag = tag) && out a))
    pushes := c.pushes.filter (fun p => !(decide (p.tag = tag) && p.visible.isNone))
    t := { c.t with pend := c.t.pend.filter (fun e => !(decide (e.tag = tag) && e.visible.isNone)) } }) c

/-- What held words that were issued again, by a word that is cancelled, have still to do: their lanes go back to the replay
queue, or to the block that `vrest` took them from (13 R331, R332). -/
def State.unissue (s : State) (n : Nat) (instret : W64) : State :=
  let c := s.coreAt n
  let mine := c.reissued.filter (fun e => decide (instret.toNat ≤ e.1.toNat))
  let back := mine.map (fun e => c.heldOf e.2)
  let s := s.modCore n (fun c => { c with reissued := c.reissued.filter (fun e => decide (e.1.toNat < instret.toNat)) })
  let from_ (b : VBlock) : Bool := b.restored && decide (b.by_.1 = n) && decide (instret.toNat ≤ b.by_.2.toNat)
  if s.vblocks.any (fun e => from_ e.2) then
    { s with vblocks := s.vblocks.map (fun (e : Nat × VBlock) =>
        (e.1, if from_ e.2 then { e.2 with restored := false, held := back } else e.2)) }
  else s.modCore n (fun c => { c with replay := c.replay ++ back })

/-- A sequencer that a cancelled `hnew` or `hfork` allocated is as it was (06 R141). -/
def State.unalloc (s : State) (id : W32) : State :=
  { s with seqrs := FMap.put s.seqrs (seqrKey id) { Seqr.reset with gen := id.extractLsb' 0 4 } }
/-- The handle that a packet's message carries. -/
def Packet.hnd (p : Packet) : W32 :=
  match p.body with | .msg m _ | .start m _ _ | .qask m _ => m.hnd | _ => 0
/-- The quantum of a core's region is being committed. -/
def State.commits (s : State) (c : Core) : Bool := ((s.ctxOf c).map (·.committing)).getD false

/-- Cancels every word of core `n` from INSTRET `instret` on, without effect (06 R141): the thread is `before` again, the accesses
that `keep` does not keep go, with packets that have not left and the handles and credits that they took, and the words do not
count (03 R66). -/
def State.undo (s : State) (n : Nat) (instret : W64) (before : Thread) (keep : Nat → Access → Bool) : State :=
  let s := s.unissue n instret
  let c := s.coreAt n
  let l := c.mem.mapIdx (fun i a => (i, a))
  let gone := (l.filter (fun e => !keep e.1 e.2)).map (·.2)
  let unsent := c.later.filter (fun e => decide (instret.toNat ≤ e.instret.toNat))
  let freed := gone.filterMap (fun a => match a.kind with | .unhold id => some id | _ => none)
  let made := (c.t.h.toList.filterMap (fun h => h.map (·.id)) ++ freed).filter (fun id =>
    !before.h.toList.any (fun h => decide (h.map (·.id) = some id)))
  let s := s.dropTickets gone
  let s := unsent.foldl (fun (s : State) e => if e.pkt.hnd = 0 then s else s.releaseHandle e.pkt.hnd) s
  (made.foldl State.unalloc s).modCore n (fun c =>
    { c with t := before, instret := instret, mem := (l.filter (fun e => keep e.1 e.2)).map (·.2), txn := .none, fpark := none, silent := none, listed := none
             pushes := c.pushes.filter (fun p => decide (p.instret.toNat < instret.toNat)), slot := .done
             later := c.later.filter (fun e => decide (e.instret.toNat < instret.toNat))
             credits := c.credits + (unsent.filter (·.msg)).length
             qcount := c.qcount - (c.instret.toNat - instret.toNat)
             qended := c.qended && s.commits c })

/-- Every word from the access's own on is cancelled. -/
def State.rollback (s : State) (n k : Nat) (x : Access) : State :=
  s.undo n x.instret x.before (fun i a => decide (i < k) && decide (a.tag ≠ x.tag) && decide (a.instret.toNat ≤ x.instret.toNat))

/-- What a check of an access not yet cleared finds. -/
def State.pendingFault (s : State) (n : Nat) : Option (BitVec 8 × W64) :=
  let c := s.coreAt n
  match findAt (fun (a : Access) => !a.cleared) c.mem 0 with
  | none => none
  | some (k, x) => match s.perform n x (c.mem.take k) with | .fault code tval => some (code, tval) | _ => none

/-- TCAUSE of a trap in a cordon (06 R144): CORD and FMEMBER. -/
def cordTcause (tcause : W64) (fm : Nat) : W64 :=
  (tcause &&& 0xFFFF_FFFF_007F_FFFF) ||| BitVec.ofNat 64 (fm * 2 ^ 24 + 2 ^ 23)

/-- A synchronous cause in a cordon traps every member at the same word (06 R144): `causes` holds each member that has a
cause of its own. -/
def State.cordonTrap (s : State) (ms : List Nat) (causes : List (Nat × BitVec 8 × W64)) (resume : W64) : State :=
  let lanes := causes.map (fun e => (s.coreAt e.1).lane.toNat)
  let fm := lanes.foldl min 16
  let fcode := (causes.find? (fun e => decide ((s.coreAt e.1).lane.toNat = fm))).map (·.2.1)
  ms.foldl (fun s m => s.modCore m (fun c =>
    let own := causes.find? (fun e => decide (e.1 = m))
    let (code, tval) := match own with
      | some e => (e.2.1, e.2.2)
      | none => (cCordonPeer, (fcode.getD 0).setWidth 64)
    let c' := c.takeTrap code tval false resume 0
    { c' with tcause := cordTcause c'.tcause fm })) s

/-- A fault of the access at place `k`, found after its word issued. It waits until every earlier word has cleared. -/
def State.lateFault (s : State) (n k : Nat) (code : BitVec 8) (tval : W64) : State :=
  let c := s.coreAt n
  match c.mem[k]? with
  | none => s
  | some x =>
    if (c.mem.take k).any (fun e => !e.cleared && decide (e.instret.toNat ≤ x.instret.toNat))
        || c.pushes.any (fun p => decide (p.instret.toNat < x.instret.toNat)) then s
    else
      let ms := s.cordonOf n
      if ms.length ≤ 1 ∨ c.pl ≠ 0 then (s.rollback n k x).modCore n (fun c => c.takeTrap code tval false x.pc 0)
      else
        let causes := ms.filterMap (fun m => if m = n then some (n, code, tval)
          else (s.pendingFault m).map (fun e => (m, e.1, e.2)))
        let s' := ms.foldl (fun s m =>
          let i := (s.coreAt m).iss
          s.undo m i.instret i.before (fun _ a => decide (a.instret.toNat < i.instret.toNat))) s
        s'.cordonTrap ms causes x.pc

/-- Everything that is parked: accesses, fetches and words, streams, engine commands and messages (07 R181). -/
def State.parks (s : State) : List (Nat × Nat) :=
  s.cores.flatMap (fun (e : Nat × Core) =>
      e.2.mem.filterMap (·.parked) ++ e.2.gpark.toList ++ (e.2.fpark.map (fun p => (p.1, p.2.1))).toList ++ e.2.copyq.filterMap (·.parked)
        ++ e.2.t.streams.toList.filterMap (fun q => q.bind (·.parked)))
    ++ s.tiles.flatMap (fun (e : Nat × List TileTask) => e.2.filterMap (·.parked))
    ++ s.net.filterMap (·.parked)

/-- The monitors of a walker's slice that are in use (07 R181). -/
def State.monitors (s : State) (slice : Nat) : Nat :=
  (s.parks.filter (fun p => decide (parkSlice p.1 = slice))).length

/-- A walk for the access at place `k` met an invalid entry (07 R181): it parks, or faults at once where its core has no
context or its slice no free monitor. -/
def State.parkAccess (s : State) (n k : Nat) (x : Access) (pte : Nat) : State :=
  if (s.coreAt n).ctxid = 0 ∨ 256 ≤ s.monitors (s.homeSlice x.addr.toNat) then s.lateFault n k cPageFault x.addr
  else s.modCore n (fun c => { c with mem := setAt c.mem k { x with parked := some (s.parkKey pte (s.homeSlice x.addr.toNat), s.time) } })

/-! ## Threads that move (07 R176, R177, R183, R194) -/

/-- A core becomes idle (06 R131). -/
def Core.goIdle (c : Core) : Core :=
  { c with run := .idle, ready := max c.ready c.t.divDue, silent := none, gpark := none, listed := none, pl := 0, slot := .done, txn := .none, marked := false, preempt := false, tretWait := false, tretGo := false,
           t := { c.t with w := 0, streams := Vector.replicate 4 none } }

/-- A condition that keeps a thread on its core (07 R176); `but` names an access that does not count as vector work. DESIGN CHOICE (log
entry 56): nor does a `vst` that has issued, which the thread waits for as for any store. -/
def State.pinned (s : State) (n : Nat) (but : Option Nat := none) : Bool :=
  let c := s.coreAt n
  decide (1 < c.cordsz.toNat) || s.isDet c || decide (c.pl ≠ 0) || !c.copyq.isEmpty
    || s.tiles.any (fun e => e.2.any (fun t => decide (t.poster = n)))
    || c.t.streams.toList.any (·.isSome) || !c.replay.isEmpty
    || c.mem.any (fun a => a.isVector && !a.performed && decide (some a.tag ≠ but))
    || c.t.pend.any (fun e => decide (e.file = .v) && e.visible.isNone && decide (some e.tag ≠ but))

/-- A core is idle in a context. -/
def State.idleIn (s : State) (m : Nat) (ctx : W32) : Bool :=
  decide ((s.coreAt m).run = .idle) && decide ((s.coreAt m).ctxid = ctx)
    && !s.net.any (fun p => match p.body with | .migrate _ _ => decide (p.dest = .core m) | _ => false)

/-- The locations of `n` bytes from an address. -/
def State.locsOf (s : State) (a : W64) (n : Nat) : List Nat := (List.range n).map (fun i => s.locate (a + BitVec.ofNat 64 i))

/-- OWNFUT of a frame, 0 for none (12 Table 12-2). -/
def State.ownFutOf (s : State) (frame : W64) : W64 :=
  if frame = 0 then 0
  else match s.readLocs (s.locsOf (frame + 0xB0) 8) .bypass none with
    | .ok bs _ => BitVec.ofNat 64 (ofBytes bs)
    | _ => 0

/-- Steps 3 and 4 of R177: the thread leaves in a register-context message, and the core becomes idle. Its live generator
descriptors travel with it (log entry 52). -/
def State.sendThread (s : State) (n : Nat) (dest : Dest) (t : Thread) (status : Option Nat) : State :=
  let c := s.coreAt n
  let t' := { t.finish with nom := 0 }
  let target := match dest with | .core m => m | _ => 4096
  let mark : List Packet := if c.marked then
    [{ src := n, dest := .home c.ctxid.toNat, ctx := c.ctxid.toNat, body := .mark t.frame (s.ownFutOf t.frame) }] else []
  { s.setCore n { c.goIdle with fwd := c.fwd ++ [(target, s.time + 4000, t.run)] } with
      net := s.net ++ [{ src := n, dest := dest, ctx := c.ctxid.toNat, body := .migrate t' status }] ++ mark }

/-- The home core of a line of paged or cask memory that is another core's (07 R175). -/
def State.otherHome (s : State) (n : Nat) (a : W64) : Option Nat :=
  match s.ctxOf (s.coreAt n), s.window a with
  | some x, .paged | some x, .cask _ _ => if x.homeCore a.toNat = n then none else some (x.homeCore a.toNat)
  | _, _ => none

/-- The predictor's entry for a PC, and its update (07 R176). -/
def Core.predIndex (c : Core) : Nat := (c.iss.pc.extractLsb' 3 8).toNat
def Core.predicts (c : Core) (home : Nat) : Bool :=
  if h : c.predIndex < 256 then decide (c.pred[c.predIndex].1.toNat = home) && decide (4 ≤ c.pred[c.predIndex].2.toNat) else false
def Core.train (c : Core) (home : Nat) : Core :=
  if h : c.predIndex < 256 then
    let e := c.pred[c.predIndex]
    let e' := if e.1.toNat = home then (e.1, if e.2 = 7 then 7 else e.2 + 1) else (BitVec.ofNat 12 home, 1)
    { c with pred := c.pred.set c.predIndex e' h }
  else c

/-- What a word does before an access whose line is homed elsewhere (07 R176, R177): go on, wait, or leave the core. -/
inductive Move where
  | stay (s : State)
  | wait
  | gone (s : State)
  deriving DecidableEq, Repr

/-- Chooses between a remote word access and a migration (07 R176). -/
def State.move (s : State) (a : W64) : Move :=
  let n := s.ev.core
  match s.otherHome n a with
  | none => .stay s
  | some home =>
    let c := s.cur
    let want : Bool := if c.t.homepol = 1 then false else if c.t.homepol = 2 then true else c.predicts home
    let s' := if c.t.homepol = 0 then s.modCur (fun c => c.train home) else s
    if !want || s.pinned n then .stay s'
    else if c.uncleared || decide (0 < c.unacked) || c.dividing then .wait
    else if !(s.idleIn home c.ctxid) || decide (8 ≤ c.fwd.length) then .stay s'
    else .gone (s'.sendThread n (.core home) { c.t with pc := c.iss.pc } none)

/-- The core nearest, in mesh hops, to a mesh position; of several, the lowest number (07 R183). -/
def nearestCore (router : Nat) (ms : List Nat) : Option Nat :=
  ms.foldl (fun (b : Option Nat) m => match b with
    | none => some m
    | some x =>
      let dx := meshHops router (sgOf x)
      let dm := meshHops router (sgOf m)
      if dm < dx ∨ (dm = dx ∧ m < x) then some m else some x) none

/-- A walk of core `n` for a handler finds memory of the other die, or of another device (07 R183): where its thread goes. `but` names
an access that does not count as vector work. DESIGN CHOICE (log entry 56): CTL.HOMEPOL is not asked, as it chooses between a line's home
and this core alone (07 R176). -/
def State.walkTarget (s : State) (n : Nat) (a : W64) (but : Option Nat) : Option Dest :=
  let c := s.coreAt n
  match s.ctxOf c with
  | none => none
  | some ctx =>
    if s.pinned n but || decide (8 ≤ c.fwd.length) || (FMap.get? s.cache (a.toNat / 64)).isSome then none
    else match s.window a, s.walk a.toNat with
      | .paged, .ok pa =>
        let loc := spaceOf pa
        if loc = 5 then
          let dev := offOf pa / 2 ^ 42
          if s.ev.ok && ctx.devices.contains dev then some (.remote (BitVec.ofNat 32 (dev * 2 ^ 18))) else none
        else if loc < 4 ∧ loc % 2 ≠ dieOf n then
          let ms := ctx.cores.filter (fun m => decide (dieOf m = loc % 2) && s.idleIn m c.ctxid)
          (nearestCore (Config.portRouter loc (offOf pa) % 32) ms).map Dest.core
        else none
      | _, _ => none

/-- Tries an access at place `k` that may be tried. `value` says what to do with the bytes it returns. -/
def State.tryIf (s : State) (n k : Nat) (ok : Bool) (value : State → Access → List Byte → State) : State :=
  let c := s.coreAt n
  match c.mem[k]? with
  | none => s
  | some x =>
    if ok then
      match s.walkTarget n x.addr (match x.form with | .lane _ _ => none | _ => some x.tag) with
      | some dest =>
        if (c.mem.take k).any (fun e => !e.cleared) || decide (0 < ((c.mem.take k).filter Access.isStore).length) || x.before.div.isSome && c.t.div.isSome then s
        else (s.rollback n k x).sendThread n dest { x.before with pc := x.pc } none
      | none =>
        match s.perform n x (c.mem.take k) with
        | .done vals s' => value s' x vals
        | .wait => s
        | .park p => s.parkAccess n k x p
        | .fault code tval => s.lateFault n k code tval
    else s
/-- Tries to perform the access at place `k`. -/
def State.tryPerform (s : State) (n k : Nat) (value : State → Access → List Byte → State) : State :=
  s.tryIf n k (s.mayPerform n k) value

/-! ## Issuing an access -/

/-- The handle that an h field names (08 R199). -/
def Core.handleOf (c : Core) (h : BitVec 4) : Option Handle := if h = 0 then none else c.rh h

/-- The fixed latency of an access: of a scratchpad of the supergroup, with two cycles more for an atomic (01 R13, 07 R190). -/
def accLatency (n : Nat) (kind : AccKind) (locs : List Nat) : Nat :=
  match locs with
  | l :: _ =>
    let lat := if spaceOf l = spSpad ∧ kind ≠ .store then spadLatency n (offOf l / 2 ^ 16) else 0
    match kind with
    | .atomic _ | .vatomic _ _ _ _ => if lat = 0 then 0 else lat + 2
    | _ => lat
  | [] => 0

/-- An access of the word being issued. -/
def State.newAccess (s : State) (kind : AccKind) (form : LoadForm) (a : W64) (locs : List Nat) (data : List Byte)
    (h : BitVec 4) (o : Ord) (sc : Scope) (hint : Hint) : Access :=
  let c := s.cur
  let det : Bool := s.isDet c && (match kind with | .store | .atomic _ | .vatomic _ _ _ _ => true | _ => false)
  { tag := c.nextTag, kind := kind, form := form, addr := a, bytes := locs, data := data, data2 := 0,
    handle := c.handleOf h, ord := o, scope := sc, hint := hint, ticket := none, prior := [], priorTickets := [],
    performed := false, result := [], cleared := false, pc := c.iss.pc, parked := none, before := c.iss.before,
    instret := c.iss.instret, losses := 0, held := det, due := s.cycle + accLatency s.ev.core kind locs
    since := s.time }

/-- Adds an access of the word being issued; its tag and the next are used. -/
def Core.push (c : Core) (x : Access) : Core := { c with mem := c.mem ++ [x], nextTag := x.tag + 2 }

/-- In a deterministic region the core's quantum ends after, or at, the word being issued (12 R283). -/
def State.endQuantum (s : State) : State := if s.isDet s.cur then s.modCur (fun c => { c with qended := true }) else s

/-- No further store fits, with the strips that will be pushed: 32 unacknowledged, or 256 held in a deterministic region (07 R186, 12 R283). -/
def State.storesFull (s : State) : Bool :=
  decide ((if s.isDet s.cur then 256 else 32) ≤ s.cur.unacked + s.cur.pushes.length)

/-! ## Words that read or write memory at once -/

/-- How a read or a write of a word that does not go on without it ends. -/
inductive Sync where
  | ok (bytes : List Byte) (s : State)
  | stop (r : Res)
  deriving DecidableEq, Repr

/-- The word waits for a parked walk, or faults where its core has no context (07 R181). -/
def State.syncPark (s : State) (a : W64) (pte : Nat) : Sync :=
  if s.cur.ctxid = 0 ∨ 256 ≤ s.monitors (s.homeSlice a.toNat) then .stop (.trap cPageFault a)
  else .stop (.wait (s.modCur (fun c => { c with fpark := some (s.parkKey pte (s.homeSlice a.toNat), s.time, a) })))

/-- The thread of the word being issued. -/
def State.curThread (s : State) : Nat := threadKey s.ev.core s.cur.t.run

/-- Core `n` waits for the places of an access at an address: where another device's does not answer, since a time (07 R168, R183). -/
def State.keepOff (s : State) (n : Nat) (a : W64) (locs : List Nat) : State :=
  if locs.any (fun l => (s.awayAt l).isSome) then
    s.modCore n (fun c => { c with silent := match c.silent with | some (t, b) => some (if b = a then t else s.time, a) | none => some (s.time, a) })
  else s
/-- The places of an access of core `n` at an address have answered. -/
def State.answered (s : State) (n : Nat) (a : W64) : State :=
  if ((s.coreAt n).silent.map (·.2)) = some a then s.modCore n (fun c => { c with silent := none }) else s
/-- A word's access waits: a place is not to be reached now, or its device does not answer, which `ev.val` says. -/
def State.offNow (s : State) (locs : List Nat) : Bool :=
  locs.any s.blockedPlace || (decide (s.ev.val ≠ 0) && locs.any (fun l => (s.awayAt l).isSome))

/-- What a word's own access does first (07 R176, R183): its thread may move to the line's home, or to where its memory is attached. -/
def State.syncMove (s : State) (a : W64) : Move :=
  match s.move a with
  | .stay s' =>
    let c := s.cur
    match s.walkTarget s.ev.core a none with
    | none => .stay s'
    | some dest =>
      if c.uncleared || decide (0 < c.unacked) || c.dividing then .wait
      else .gone (s'.sendThread s.ev.core dest { c.t with pc := c.iss.pc } none)
  | r => r

/-- A word's own load of `n` bytes with the checks of R186; `align` is its alignment. -/
def State.syncLoad (s : State) (a : W64) (n align : Nat) : Sync :=
  match s.accCheck s.cur .load a align with
  | some code => .stop (.trap code a)
  | none =>
    match s.window a with
    | .gen g off => .ok (genBytes (s.cur.gen g) off n) s
    | .regs off => if n = 8 then .ok (toBytes 8 (s.regLoad s.cur off).toNat) s else .stop (.trap cWindowMisuse a)
    | _ => match s.syncMove a with
      | .wait => .stop (.wait s)
      | .gone s' => .stop (.wait s')
      | .stay s0 =>
        let locs := s.locsOf a n
        if s.offNow locs then .stop (.wait (s.keepOff s.ev.core a locs))
        else match s0.readLocs locs .default (s.l1For s.cur a) with
        | .ok bs s' => .ok bs (({ s'.see s.curThread locs none with links := s.linksAfter locs true } : State).answered s.ev.core a)
        | .invalid p => s.syncPark a p
        | .stop code => .stop (.trap code (faultTval code a))

/-- A word's own store, after its thread's earlier accesses of the same bytes (08 R198). -/
def State.syncStore (s : State) (a : W64) (bs : List Byte) (align : Nat) : Sync :=
  match s.accCheck s.cur .store a align with
  | some code => .stop (.trap code a)
  | none =>
    match s.window a with
    | .gen _ _ => .ok [] s
    | .regs _ => .stop (.trap cWindowMisuse a)
    | _ => match s.syncMove a with
      | .wait => .stop (.wait s)
      | .gone s' => .stop (.wait s')
      | .stay s0 =>
        let locs := s.locsOf a bs.length
        if s.offNow locs then .stop (.wait (s.keepOff s.ev.core a locs))
        else if s.cur.mem.any (fun e => !e.performed && e.bytes.any locs.contains) then .stop (.wait s.endQuantum)
        else match s0.writeLocs locs bs .default (s.l1For s.cur a) with
        | .ok _ s' => .ok [] (({ s'.dropVisitor locs with links := s.linksAfter locs false } : State).answered s.ev.core a)
        | .invalid p => s.syncPark a p
        | .stop code => .stop (.trap code (faultTval code a))

/-- Every access of the thread is performed; in a deterministic region the word ends the quantum to get there. -/
def State.quietThen (s : State) (k : State → Res) : Res :=
  if s.cur.mem.all Access.isJoin && !s.cur.uncleared then k s else .wait s.endQuantum

/-- A word that must wait for another agent ends the quantum of a deterministic region, and runs in the commit
(12 R283, R284). -/
def State.gateThen (s : State) (k : State → Res) : Res :=
  if s.cur.uncleared then .wait s
  else if s.isDet s.cur && !s.cur.qgo then .wait s.endQuantum
  else k (s.modCur (fun c => { c with qgo := false }))

/-- `hnew` and `hfork` are served at once, or at the quantum end of a deterministic region: no asynchronous cause cancels one
that waits for its grant (08 R207, R209). -/
def State.grantThen (s : State) (k : State → Res) : Res :=
  if s.isDet s.cur && !s.cur.qgo then .wait (s.modCur (fun c => { c with txn := .grant })).endQuantum
  else k (s.modCur (fun c => { c with qgo := false, txn := .none }))

/-- The effect waits for the quantum end as long as the quantum runs; a change of a handle or a future always does. -/
def State.holdsBack (s : State) (c : Core) (b : Body) : Bool :=
  s.isDet c && (match b with
    | .unhold _ | .fset _ _ _ | .fref _ | .fdrop _ => true
    | _ => ((s.ctxOf c).map (fun x => !x.committing)).getD false)

/-- A packet leaves a core; in a deterministic region it is held until the quantum end (12 R284). -/
def State.emitNow (s : State) (n : Nat) (p : Packet) : State :=
  if s.holdsBack (s.coreAt n) p.body then s.modCore n (fun c => { c with heldOut := c.heldOut ++ [p] })
  else { s with net := s.net ++ [p] }

/-- A packet of the word being issued at core `n`: it leaves once every earlier word can no longer fault (06 R141). -/
def State.emit (s : State) (n : Nat) (p : Packet) (msg : Bool := false) : State :=
  if (s.coreAt n).uncleared then s.modCore n (fun c => { c with later := c.later ++ [{ instret := c.iss.instret, pkt := p, msg := msg }] })
  else s.emitNow n p
/-- No word up to the one with this INSTRET can fault any more: its packets leave. -/
def Core.mayLeave (c : Core) (instret : W64) : Bool :=
  c.mem.all (fun e => e.cleared || decide (instret.toNat < e.instret.toNat))
    && c.pushes.all (fun p => decide (instret.toNat < p.instret.toNat))

/-- A word's own load of `n` bytes may be bound now: nothing earlier holds it back (08 R198, R203). -/
def State.readyFor (s : State) (a : W64) (n : Nat) : Bool :=
  let c := s.cur
  let x := s.newAccess .load .zext a (s.locsOf a n) [] 0 .plain .dev .default
  c.mem.all (fun e => !s.blocks c e x && (e.performed || e.isJoin || !e.overlaps x))
def State.readyThen (s : State) (a : W64) (n : Nat) (k : State → Res) : Res :=
  if s.cur.uncleared then .wait s else if s.readyFor a n then k s else .wait s.endQuantum

/-- A result of the word being issued for a bound register: it is pushed once it is visible (13 R325). -/
def Core.willPush (c : Core) (r : Nat) (x : W512) (visible : Option Nat) (tag : Nat) : Core :=
  { c with pushes := c.pushes ++ [{ reg := r, val := x, issued := c.iss.nom, visible := visible, tag := tag, pc := c.iss.pc,
                                    before := c.iss.before, instret := c.iss.instret }] }

/-- Core `n`'s held words go on (13 R331, R332): their unperformed lanes are issued again at the word being issued, which
takes their faults, and each gather's whole destination is expected. They take names of this core's. -/
def State.reissue (s : State) (n : Nat) : State :=
  (s.coreAt n).replay.foldl (fun (s : State) w => s.modCore n (fun c =>
    let tag := c.nextTag
    let lanes := w.lanes.map (fun (a : Access) =>
      { a with tag := tag, pc := c.iss.pc, before := c.iss.before, instret := c.iss.instret, parked := none })
    let c := match w.dest with
      | none => c
      | some r =>
        if 28 ≤ r ∧ ((c.t.streams.toList.getD (r - 28) none).isSome) = true then c.willPush r w.val (if lanes.isEmpty then some c.iss.nom else none) tag
        else if lanes.isEmpty then c.outMask .v r w.val none 0 else c.expectV r tag w.val none
    { c with mem := c.mem ++ lanes, nextTag := tag + 2, reissued := c.reissued ++ [(c.iss.instret, tag)] })) (s.modCore n (fun c => { c with replay := [] }))
/-- The members of a cordon stand at the slot that the current core issues. -/
def State.meet (s : State) (ms : List Nat) : State :=
  ms.foldl (fun (s : State) m => if m = s.ev.core then s else s.modCore m (fun c =>
    { c with iss := { s.cur.iss with nom := c.t.nom, instret := c.instret, rmode := c.t.rmode, ternbad := c.ternbad, before := c.t } })) s
/-- A word first completes the held words of its core (13 R332). -/
def State.replayThen (s : State) (k : State → Res) : Res :=
  if s.cur.replay.isEmpty then k s else .wait (s.reissue s.ev.core)

/-- Memory as core `n`'s fetch sees it that becomes coherent now: with the core's own stores that have been accepted and not yet
performed (03 R55, 19 Table 19-1). -/
def State.codeFor (s : State) (n : Nat) : CodeView :=
  ((s.coreAt n).mem.foldl (fun (v : State) x =>
    if x.isStore && !x.performed then
      (match v.writeLocs x.bytes x.data .bypass none with | .ok _ v' => v' | _ => v)
    else v) s).codeView

/-- An effect that leaves the core is released when every earlier word can no longer fault (06 R141). -/
def State.clearedThen (s : State) (k : State → Res) : Res := if s.cur.uncleared then .wait s else k s

end Sys2Proof.Machine
end

