-- ==== Sys2Proof/Machine/Handles.lean ====
section
/-!
DEFINITION. The order-handle words (08 R208-R216).
-/
namespace Sys2Proof.Machine

/-- The lowest-numbered free sequencer of a core's slice, as an identifier (08 R209, Table 8-3). -/
def State.freeSeqr (s : State) (core : Nat) : Option W32 :=
  let base := s.devid * 2 ^ 14 + sgOf core * 2 ^ 8
  ((List.range 256).find? (fun i => !(FMap.getD s.seqrs (base + i) Seqr.reset).alloc)).map (fun i =>
    BitVec.ofNat 32 ((base + i) * 16 + (FMap.getD s.seqrs (base + i) Seqr.reset).gen.toNat))

/-- Allocates a sequencer with one holder. -/
def State.allocSeqr (s : State) (id : W32) (scope : Scope) : State :=
  let q : Seqr :=
    { gen := id.extractLsb' 0 4, alloc := true, holders := 1, scope := scope, owner := s.cur.ctxid.toNat, next := 0,
      opens := [] }
  { s with seqrs := FMap.put s.seqrs (seqrKey id) q }

/-- The wider of two scopes. -/
def widerScope (a b : Scope) : Scope := if a.bits < b.bits then b else a

/-- What a join waits for: accesses of the core by tag, tickets by sequencer, and of a named handle its mark. -/
structure Prior where
  tags : List Nat
  tickets : List (Nat × Nat)
  mark : Option (W32 × Nat)
  deriving DecidableEq, Repr

/-- Prior(x) for the default handle: the thread's h0 accesses that are not yet performed (08 R210). -/
def Core.prior0 (c : Core) : List Nat :=
  (c.mem.filter (fun a => a.handle.isNone && !a.performed && !a.isJoin)).map (·.tag)

/-- A join ticket under a handle, with what it waits for (08 R210, R211). A sequencer of another device gives the ticket later,
or does not answer (08 R216). -/
def State.addJoin (s : State) (h : Handle) (sc : Scope) (p : Prior) : State :=
  let (t, s') : Option Nat × State := if s.foreign h.id then (none, s) else ((s.nextTicket h.id).1, (s.nextTicket h.id).2)
  let x := { s'.newAccess .join .zext (h.id.setWidth 64) [] [] 0 .plain sc .default with
               handle := some h, ticket := t, prior := p.tags, priorTickets := p.tickets, mark := p.mark
               cleared := !s.foreign h.id }
  s'.modCur (fun c => c.push x)

/-- A mark at a sequencer of another device: a join ticket that waits for nothing of its own. -/
def State.addMark (s : State) (h : Handle) : State := s.addJoin h h.scope { tags := [], tickets := [], mark := some (h.id, 0) }

/-- Prior(x) of a handle register: the thread's requests reach the sequencer first. At another device a join ticket of its own
stands for the mark: every earlier ticket is performed before it. -/
def State.priorOf (s : State) (g : BitVec 4) : Prior × State :=
  match s.cur.handleOf g with
  | none => ({ tags := s.cur.prior0, tickets := [], mark := none }, s)
  | some h =>
    if s.foreign h.id then
      ({ tags := [s.cur.nextTag], tickets := [], mark := some (h.id, 2 ^ 64) }, s.addMark h)
    else
      let s' := s.ticketed s.ev.core h.id
      ({ tags := [], tickets := (s'.seqr h.id).opens.map (fun t => (seqrKey h.id, t)), mark := some (h.id, (s'.seqr h.id).next) }, s')

/-- `hnew` (08 R209). -/
def execHnew (h : BitVec 4) (c : Scope) (s : State) : Host.Outcome State Fault Refusal :=
  runWord (.hnew h c) s (fun s => s.grantThen (fun s =>
    match s.freeSeqr s.ev.core with
    | none => .ok (s.nowP7 false)
    | some id => .ok (((s.allocSeqr id c).setH h (some { id := id, scope := c })).nowP7 true)))

/-- `hfork` (08 R210). -/
def execHfork (h g : BitVec 4) (c : Scope) (s : State) : Host.Outcome State Fault Refusal :=
  runWord (.hfork h g c) s (fun s => s.grantThen (fun s =>
    match s.freeSeqr s.ev.core with
    | none => .ok (s.nowP7 false)
    | some id =>
      let (p, s) := s.priorOf g
      let nh : Handle := { id := id, scope := c }
      .ok ((((s.allocSeqr id c).setH h (some nh)).addJoin nh c p).nowP7 true)))

/-- A ticket that an engine command holds: no fence waits for it (08 R206, R214). -/
def State.engineTicket (s : State) (key t : Nat) : Bool :=
  let holds (h : Option Handle) (k : Option Nat) : Bool := decide (h.map (fun x => seqrKey x.id) = some key) && decide (k = some t)
  s.cores.any (fun (e : Nat × Core) => e.2.copyq.any (fun (q : CopyCmd) => holds q.handle q.ticket))
    || s.tiles.any (fun (e : Nat × List TileTask) => e.2.any (fun (q : TileTask) => holds q.handle q.ticket))

/-- The marks of a word (08 R211, R214), which are recorded once: the next ticket of each sequencer, and a join ticket at each
of another device. -/
def State.setMarks (s : State) (hs : List Handle) : List (Nat × Nat) × List Nat × State :=
  match s.cur.txn with
  | .marks ms ts => (ms, ts, s)
  | _ =>
    let far := hs.filter (fun h => s.foreign h.id)
    let s := hs.foldl (fun (s : State) h => s.ticketed s.ev.core h.id) s
    let ms := (hs.filter (fun h => !s.foreign h.id)).map (fun h => (seqrKey h.id, (s.seqr h.id).next))
    far.foldl (fun (p : List (Nat × Nat) × List Nat × State) h =>
      (p.1, p.2.1 ++ [p.2.2.cur.nextTag], p.2.2.addMark h)) (ms, [], s)

/-- What a wait at a scope is for, beside marked tickets: accesses of the thread, and the stores that they were. -/
structure Own where
  access : Access → Bool
  store : Writer → Bool
/-- Nothing, the thread's h0 accesses, and all of its accesses: `fence` waits under every handle (19 R398). -/
def Own.none : Own := { access := fun _ => false, store := fun _ => false }
def State.ownZero (s : State) : Own :=
  { access := fun a => a.handle.isNone && !a.isJoin, store := fun w => decide (w.thread = s.curThread) && w.ticket.isNone }
def State.ownAll (s : State) : Own := { access := fun a => !a.isJoin, store := fun w => decide (w.thread = s.curThread) }

/-- The accesses that a wait at scope `sc` has been for are performed: at system scope the visitor copies are gone (08 R205). -/
def State.reachMarks (s : State) (hs : List Handle) (ms : List (Nat × Nat)) (sc : Scope) (own : Own) : State :=
  let s := if sc = .sys then s.reach own.store else s
  hs.foldl (fun (s : State) h =>
    if widerScope sc h.scope = .sys then
      s.reach (fun w => match w.ticket with
        | some (id, t) => decide (id = h.id) && ((ms.find? (fun m => decide (m.1 = seqrKey id))).map (fun m => decide (t < m.2))).getD true
        | none => false)
    else s) s

/-- Waits for marked tickets and for the thread's own accesses (08 R211, R214). -/
def State.awaitMarks (s : State) (hs : List Handle) (sc : Scope) (own : Own) : Res :=
  let (ms, ts, s0) := s.setMarks hs
  if ms.all (fun m => (FMap.getD s0.seqrs m.1 Seqr.reset).opens.all (fun o => decide (m.2 ≤ o) || s0.engineTicket m.1 o))
      && !s0.cur.mem.any (fun a => ts.contains a.tag) && !s0.cur.mem.any (fun a => own.access a && !a.performed) then
    .ok ((s0.modCur (fun c => { c with txn := .none })).reachMarks hs ms sc own).endQuantum
  else .wait (s0.modCur (fun c => { c with txn := .marks ms ts })).endQuantum

/-- `hjoin` (08 R211). -/
def execHjoin (h g : BitVec 4) (c : Scope) (s : State) : Host.Outcome State Fault Refusal :=
  runWord (.hjoin h g c) s (fun s =>
    match s.cur.handleOf h with
    | none =>
      match s.cur.handleOf g with
      | none => s.awaitMarks [] c s.ownZero
      | some hg => s.awaitMarks [hg] c Own.none
    | some hd =>
      let (p, s) := s.priorOf g
      .ok ((s.ticketed s.ev.core hd.id).addJoin hd (widerScope c hd.scope) p))

/-- `hfree` (08 R212): earlier requests under the handle reach the sequencer first. It waits for nothing; while an earlier word
can still fault, only the holder count keeps (06 R141). -/
def execHfree (h : BitVec 4) (s : State) : Host.Outcome State Fault Refusal :=
  runWord (.hfree h) s (fun s =>
    match s.cur.handleOf h with
    | none => .ok s
    | some hd =>
      let s := (s.ticketed s.ev.core hd.id).setH h none
      if s.isDet s.cur then
        .ok (s.emit s.ev.core { src := s.ev.core, dest := .core s.ev.core, ctx := s.cur.ctxid.toNat, body := .unhold hd.id })
      else if s.cur.uncleared then
        .ok (s.modCur (fun c => c.push { s.newAccess (.unhold hd.id) .zext 0 [] [] 0 .plain .core .default with cleared := true }))
      else .ok (s.releaseHandle hd.id))

/-- The access counts under a handle, join tickets too (08 R200). -/
def Access.under (x : Access) (h : Option Handle) : Bool :=
  (match x.kind with | .unhold _ => false | _ => true) && decide (x.handle.map (·.id) = h.map (·.id))

/-- `hwait` (08 R213): this thread's accesses under the handle, its join tickets among them (08 R200), at its scope or the
handle's. -/
def execHwait (h : BitVec 4) (c : Scope) (s : State) : Host.Outcome State Fault Refusal :=
  runWord (.hwait h c) s (fun s =>
    if s.cur.mem.any (fun a => !a.performed && a.under (s.cur.handleOf h)) then .wait s.endQuantum
    else
      let sc := ((s.cur.handleOf h).map (fun x => widerScope c x.scope)).getD c
      let mine (w : Writer) : Bool := decide (w.thread = s.curThread) && decide (w.ticket.map (·.1) = (s.cur.handleOf h).map (·.id))
      .ok (if sc = .sys then s.reach mine else s).endQuantum)

/-- `fence` (08 R214): every handle that the thread holds, and its own accesses under any other (19 R398). -/
def execFence (c : Scope) (s : State) : Host.Outcome State Fault Refusal :=
  runWord (.fence c) s (fun s => s.awaitMarks ((s.cur.t.h.toList.drop 1).filterMap id) c s.ownAll)

end Sys2Proof.Machine
end

