-- ==== Sys2Proof/Machine/Integer.lean ====
section
/-!
DEFINITION. The integer words (04) and the two `nop` words (03 R73).
-/
namespace Sys2Proof.Machine

/-- A word of two scalar sources. -/
def alu2 (i : Instr) (d a b : BitVec 5) (lat : Nat) (f : W64 → W64 → W64) (s : State) :
    Host.Outcome State Fault Refusal :=
  runWord i s (fun s => .ok (s.outS d (f (s.rs a) (s.rs b)) lat))

/-- A word of one scalar source. -/
def alu1 (i : Instr) (d a : BitVec 5) (lat : Nat) (f : W64 → W64) (s : State) : Host.Outcome State Fault Refusal :=
  runWord i s (fun s => .ok (s.outS d (f (s.rs a)) lat))

/-- imm10, sign-extended (03 R68). -/
def sext10 (i : BitVec 10) : W64 := i.signExtend 64

def execNop (s : State) : Host.Outcome State Fault Refusal := runWord .nop s (fun s => .ok s)
def execNopA (s : State) : Host.Outcome State Fault Refusal := runWord .nopA s (fun s => .ok s)

def execAdd (d a b : BitVec 5) (s : State) := alu2 (.add d a b) d a b 1 (fun x y => x + y) s
def execSub (d a b : BitVec 5) (s : State) := alu2 (.sub d a b) d a b 1 (fun x y => x - y) s
def execAddi (d a : BitVec 5) (i : BitVec 10) (s : State) := alu1 (.addi d a i) d a 1 (fun x => x + sext10 i) s

/-- The 128-bit products (04 R82). -/
def mulHighS (x y : W64) : W64 := (x.signExtend 128 * y.signExtend 128).extractLsb' 64 64
def mulHighU (x y : W64) : W64 := (x.zeroExtend 128 * y.zeroExtend 128).extractLsb' 64 64

def execMul (d a b : BitVec 5) (s : State) := alu2 (.mul d a b) d a b 3 (fun x y => x * y) s
def execMulh (d a b : BitVec 5) (s : State) := alu2 (.mulh d a b) d a b 3 mulHighS s
def execMulhu (d a b : BitVec 5) (s : State) := alu2 (.mulhu d a b) d a b 3 mulHighU s

/-- The quotients and remainders with the cases of Table 4-8 (04 R83). -/
def quotS (x y : W64) : W64 := if y = 0 then BitVec.allOnes 64 else BitVec.ofInt 64 (x.toInt.tdiv y.toInt)
def quotU (x y : W64) : W64 := if y = 0 then BitVec.allOnes 64 else x / y
def remS (x y : W64) : W64 := if y = 0 then x else BitVec.ofInt 64 (x.toInt.tmod y.toInt)
def remU (x y : W64) : W64 := if y = 0 then x else x % y

/-- A result goes to the divider and arrives later (04 R84, 05 R130). -/
def Core.divide (c : Core) (d : BitVec 5) (x : W64) (flags : BitVec 5) (due : Nat) (float : Bool := false) : Core :=
  let tag := c.nextTag
  let c := { c.expect .s d.toNat tag with nextTag := tag + 1 }
  { c with t := { c.t with div := some { tag := tag, val := x, flags := flags, due := due, issued := c.iss.nom, float := float } } }

/-- The cycles that an integer divide takes (04 R84): 4 and one for each 4 significant bits of the dividend; 4 in the
cases of Table 4-8, whose third row is one of `div` and `rem` alone (log entry 52). -/
def divCycles (signed : Bool) (x y : W64) : Nat :=
  let m := if signed then x.toInt.natAbs else x.toNat
  let n := if m = 0 then 0 else Nat.log2 m + 1
  if y = 0 ∨ (signed = true ∧ x = 0x8000_0000_0000_0000 ∧ y = BitVec.allOnes 64) then 4 else 4 + (n + 3) / 4

/-- A divide word (04 R80, R83, R84): it waits for the divider, and a zero divisor traps when CTL.DZT = 1. -/
def divWord (i : Instr) (d a b : BitVec 5) (signed : Bool) (f : W64 → W64 → W64) (s : State) : Host.Outcome State Fault Refusal :=
  runWord i s (fun s =>
    if s.rs b = 0 ∧ s.cur.dzt = true then .trap cDivZero (s.rs a)
    else if s.cur.t.div.isSome then .wait s
    else .ok (s.modCur (fun c => c.divide d (f (c.rs a) (c.rs b)) 0 (s.cycle + divCycles signed (c.rs a) (c.rs b)))))

def execDiv (d a b : BitVec 5) (s : State) := divWord (.div d a b) d a b true quotS s
def execDivu (d a b : BitVec 5) (s : State) := divWord (.divu d a b) d a b false quotU s
def execRem (d a b : BitVec 5) (s : State) := divWord (.rem d a b) d a b true remS s
def execRemu (d a b : BitVec 5) (s : State) := divWord (.remu d a b) d a b false remU s

def execAnd (d a b : BitVec 5) (s : State) := alu2 (.and d a b) d a b 1 (fun x y => x &&& y) s
def execOr (d a b : BitVec 5) (s : State) := alu2 (.or d a b) d a b 1 (fun x y => x ||| y) s
def execXor (d a b : BitVec 5) (s : State) := alu2 (.xor d a b) d a b 1 (fun x y => x ^^^ y) s
def execAndn (d a b : BitVec 5) (s : State) := alu2 (.andn d a b) d a b 1 (fun x y => x &&& ~~~y) s
def execAndi (d a : BitVec 5) (i : BitVec 10) (s : State) := alu1 (.andi d a i) d a 1 (fun x => x &&& sext10 i) s
def execOri (d a : BitVec 5) (i : BitVec 10) (s : State) := alu1 (.ori d a i) d a 1 (fun x => x ||| sext10 i) s
def execXori (d a : BitVec 5) (i : BitVec 10) (s : State) := alu1 (.xori d a i) d a 1 (fun x => x ^^^ sext10 i) s

/-- The shift amount: bits 7:0 (04 R86). -/
def shamt (y : W64) : Nat := (y.extractLsb' 0 8).toNat
/-- Shifts of a lane of `w` bits: an amount of the width or more shifts everything out (04 R86). -/
def shlBits {w : Nat} (x : BitVec w) (k : Nat) : BitVec w := if w ≤ k then 0 else x <<< k
def shrBits {w : Nat} (x : BitVec w) (k : Nat) : BitVec w := if w ≤ k then 0 else x >>> k
def sraBits {w : Nat} (x : BitVec w) (k : Nat) : BitVec w :=
  if w ≤ k then (if x.msb then BitVec.allOnes w else 0) else x.sshiftRight k
/-- Rotation left by k mod 64 (04 R87). -/
def rotBits (x : W64) (k : Nat) : W64 := x.rotateLeft (k % 64)

def execShl (d a b : BitVec 5) (s : State) := alu2 (.shl d a b) d a b 1 (fun x y => shlBits x (shamt y)) s
def execShr (d a b : BitVec 5) (s : State) := alu2 (.shr d a b) d a b 1 (fun x y => shrBits x (shamt y)) s
def execSra (d a b : BitVec 5) (s : State) := alu2 (.sra d a b) d a b 1 (fun x y => sraBits x (shamt y)) s
def execShli (d a : BitVec 5) (i : BitVec 10) (s : State) :=
  alu1 (.shli d a i) d a 1 (fun x => shlBits x (shamt (sext10 i))) s
def execShri (d a : BitVec 5) (i : BitVec 10) (s : State) :=
  alu1 (.shri d a i) d a 1 (fun x => shrBits x (shamt (sext10 i))) s
def execSrai (d a : BitVec 5) (i : BitVec 10) (s : State) :=
  alu1 (.srai d a i) d a 1 (fun x => sraBits x (shamt (sext10 i))) s
def execRot (d a b : BitVec 5) (s : State) := alu2 (.rot d a b) d a b 1 (fun x y => rotBits x (shamt y)) s
def execRoti (d a : BitVec 5) (i : BitVec 10) (s : State) :=
  alu1 (.roti d a i) d a 1 (fun x => rotBits x (shamt (sext10 i))) s

/-- The set bits among the lowest `n` bits of a number. -/
def popUpTo (x : Nat) : Nat → Nat
  | 0 => 0
  | n + 1 => popUpTo x n + (if x.testBit n then 1 else 0)
/-- The zero bits above the highest set bit of the lowest `n` bits. -/
def leadZeros (x : Nat) : Nat → Nat
  | 0 => 0
  | n + 1 => if x.testBit n then 0 else leadZeros x n + 1
/-- The zero bits from bit `k` on, up to `n` of them. -/
def trailZeros (x : Nat) : Nat → Nat → Nat
  | _, 0 => 0
  | k, n + 1 => if x.testBit k then 0 else trailZeros x (k + 1) n + 1

def execClz (d a : BitVec 5) (s : State) := alu1 (.clz d a) d a 1 (fun x => BitVec.ofNat 64 (leadZeros x.toNat 64)) s
def execCtz (d a : BitVec 5) (s : State) := alu1 (.ctz d a) d a 1 (fun x => BitVec.ofNat 64 (trailZeros x.toNat 0 64)) s
def execPopc (d a : BitVec 5) (s : State) := alu1 (.popc d a) d a 1 (fun x => BitVec.ofNat 64 (popUpTo x.toNat 64)) s

def execMin (d a b : BitVec 5) (s : State) := alu2 (.min d a b) d a b 1 (fun x y => if x.slt y then x else y) s
def execMax (d a b : BitVec 5) (s : State) := alu2 (.max d a b) d a b 1 (fun x y => if x.slt y then y else x) s
def execMinu (d a b : BitVec 5) (s : State) := alu2 (.minu d a b) d a b 1 (fun x y => if x.ult y then x else y) s
def execMaxu (d a b : BitVec 5) (s : State) := alu2 (.maxu d a b) d a b 1 (fun x y => if x.ult y then y else x) s

/-- The conditions of Table 4-10. -/
def condHolds (code : Nat) (x y : W64) : Bool :=
  match code with
  | 0 => x == y
  | 1 => x != y
  | 2 => x.slt y
  | 3 => x.ult y
  | 4 => x.sle y
  | _ => x.ule y

/-- A scalar compare (04 R90). -/
def cmpWord (i : Instr) (d a b : BitVec 5) (code : Nat) (s : State) : Host.Outcome State Fault Refusal :=
  alu2 i d a b 1 (fun x y => if condHolds code x y then 1 else 0) s

def execCmpEq (d a b : BitVec 5) (s : State) := cmpWord (.cmpEq d a b) d a b 0 s
def execCmpNe (d a b : BitVec 5) (s : State) := cmpWord (.cmpNe d a b) d a b 1 s
def execCmpLt (d a b : BitVec 5) (s : State) := cmpWord (.cmpLt d a b) d a b 2 s
def execCmpLtu (d a b : BitVec 5) (s : State) := cmpWord (.cmpLtu d a b) d a b 3 s
def execCmpLe (d a b : BitVec 5) (s : State) := cmpWord (.cmpLe d a b) d a b 4 s
def execCmpLeu (d a b : BitVec 5) (s : State) := cmpWord (.cmpLeu d a b) d a b 5 s

/-- `cmpp` (04 R91): set, and, or. -/
def execCmpp (q : BitVec 3) (a b : BitVec 5) (m : BitVec 2) (c : BitVec 3) (s : State) :
    Host.Outcome State Fault Refusal :=
  runWord (.cmpp q a b m c) s (fun s =>
    let t : W64 := if condHolds c.toNat (s.rs a) (s.rs b) then BitVec.allOnes 64 else 0
    .ok (s.outP q (if m = 0 then t else if m = 1 then s.rp q &&& t else s.rp q ||| t) 1))

/-- `sel` (04 R92). -/
def execSel (d a b : BitVec 5) (p : BitVec 3) (s : State) : Host.Outcome State Fault Refusal :=
  runWord (.sel d a b p) s (fun s => .ok (s.outS d (if (s.rp p).getLsbD 0 then s.rs a else s.rs b) 1))

/-- `movi`, `movs` (04 R93). -/
def execMovi (d : BitVec 5) (i : BitVec 15) (s : State) : Host.Outcome State Fault Refusal :=
  runWord (.movi d i) s (fun s => .ok (s.outS d (i.signExtend 64) 1))
def execMovs (d : BitVec 5) (i : BitVec 15) (s : State) : Host.Outcome State Fault Refusal :=
  runWord (.movs d i) s (fun s => .ok (s.outS d ((s.rs d <<< 15) ||| i.zeroExtend 64) 1))

/-- `addsh` (04 R94). -/
def execAddsh (d a b m : BitVec 5) (s : State) := alu2 (.addsh d a b m) d a b 1 (fun x y => x + (y <<< m.toNat)) s

/-- Position and effective length of a bit-field control value (04 R95). -/
def fieldPos (c : W64) : Nat := (c.extractLsb' 0 6).toNat
def fieldLen (c : W64) : Nat := min ((c.extractLsb' 8 6).toNat + 1) (64 - fieldPos c)
/-- A mask of `e` low bits. -/
def lowMask (e : Nat) : W64 := BitVec.ofNat 64 (2 ^ e - 1)

/-- `bfx` and `bfi` (04 R96). -/
def bitExtract (x c : W64) (sx : Bool) : W64 :=
  let f := (x >>> fieldPos c) &&& lowMask (fieldLen c)
  if sx && f.getLsbD (fieldLen c - 1) then f ||| ~~~lowMask (fieldLen c) else f
def bitInsert (d x c : W64) : W64 :=
  (d &&& ~~~(lowMask (fieldLen c) <<< fieldPos c)) ||| ((x &&& lowMask (fieldLen c)) <<< fieldPos c)

def execBfx (d a b : BitVec 5) (x : BitVec 1) (s : State) :=
  alu2 (.bfx d a b x) d a b 1 (fun v c => bitExtract v c (decide (x = 1))) s
def execBfi (d a b : BitVec 5) (s : State) : Host.Outcome State Fault Refusal :=
  runWord (.bfi d a b) s (fun s => .ok (s.outS d (bitInsert (s.rs d) (s.rs a) (s.rs b)) 1))

end Sys2Proof.Machine
end

