-- ==== Sys2Proof/Machine/Weight.lean ====
section
/-!
DEFINITION. Activity weight (09 R226-R231), region events (06 R139) and the accesses that agents make to a context's
memory without a PLB check.
-/
namespace Sys2Proof.Machine

/-! ## Memory as the device's agents reach it -/

/-- Bytes at a virtual address, if they can be read. -/
def State.vRead (s : State) (a n : Nat) : Option (List Byte) :=
  let w : W64 := BitVec.ofNat 64 a
  if s.absentUnit w then none
  else match s.window w with
    | .none | .regs _ | .gen _ _ => none
    | _ => match s.readLocs (s.locsOf w n) .bypass none with
      | .ok bs _ => some bs
      | _ => none
/-- A number of `n` bytes at a virtual address; 0 where it cannot be read. -/
def State.vNum (s : State) (a n : Nat) : Nat := ((s.vRead a n).map ofBytes).getD 0
/-- The part of some bytes that lies in the first line, and the parts in the lines after it. -/
def lineRuns (a : Nat) (bs : List Byte) : Nat → List (Nat × List Byte)
  | 0 => []
  | fuel + 1 =>
    if bs.isEmpty then []
    else
      let n := 64 - a % 64
      (a, bs.take n) :: lineRuns (a + n) (bs.drop n) fuel

/-- Writes bytes of one line at a virtual address; none where it cannot. -/
def State.vPutLine (s : State) (a : Nat) (bs : List Byte) : Option State :=
  let w : W64 := BitVec.ofNat 64 a
  if s.absentUnit w then none
  else match s.window w with
    | .none | .regs _ | .gen _ _ => none
    | _ => match s.writeLocs (s.locsOf w bs.length) bs .bypass none with
      | .ok _ s' => some (s'.dropVisitor (s.locsOf w bs.length))
      | _ => none

/-- Writes bytes at a virtual address, line by line; none where one of the lines cannot be written. -/
def State.vPut (s : State) (a : Nat) (bs : List Byte) : Option State :=
  (lineRuns a bs (bs.length + 1)).foldl (fun o r => o.bind (fun s => s.vPutLine r.1 r.2)) (some s)
/-- Writes a number of `n` bytes; nothing where it cannot. -/
def State.vSet (s : State) (a n x : Nat) : State := (s.vPut a (toBytes n x)).getD s

/-! ## Parked walks of agents (07 R181) -/

/-- The first address of an area whose line cannot be reached: the invalid entry that its walk met, or its fault. -/
def State.lineMiss (s : State) (area : Nat × Nat) : Option (Nat × Except (BitVec 8) Nat) :=
  ((List.range (area.2 / 64 + 2)).map (fun i => if i = 0 then area.1 else (area.1 / 64 + i) * 64)).findSome? (fun a =>
    if a < area.1 + area.2 then
      match s.window (BitVec.ofNat 64 a) with
      | .paged => match s.look a with
        | .invalid p => some (a, .ok p)
        | .stop code => some (a, .error code)
        | .line _ _ => none
      | _ => none
    else none)
/-- An area lies where the walk meets an invalid entry, or its home slice is out of service: an agent's step that uses it waits
(07 R181, 17 R381). -/
def State.areaWait (s : State) (areas : List (Nat × Nat)) : Bool :=
  areas.any (fun e => (match s.lineMiss e with | some (_, .ok _) => true | _ => false)
    || (s.locsOf (BitVec.ofNat 64 e.1) e.2).any s.blockedPlace)
/-- A word waits for areas: where another device's do not answer, since a time. -/
def State.areaHold (s : State) (areas : List (Nat × Nat)) : State :=
  match areas.find? (fun e => s.offNow (s.locsOf (BitVec.ofNat 64 e.1) e.2)) with
  | some e => s.keepOff s.ev.core (BitVec.ofNat 64 e.1) (s.locsOf (BitVec.ofNat 64 e.1) e.2)
  | none => s
def State.areaOff (s : State) (areas : List (Nat × Nat)) : Bool :=
  s.areaWait areas || areas.any (fun e => s.offNow (s.locsOf (BitVec.ofNat 64 e.1) e.2))
/-- A word uses areas through an agent: it parks, or takes the fault of its walk, before anything is performed. -/
def State.areaThen (s : State) (areas : List (Nat × Nat)) (k : State → Res) : Res :=
  match areas.findSome? s.lineMiss with
  | some (a, .ok p) => (match s.syncPark (BitVec.ofNat 64 a) p with | .stop r => r | .ok _ s => k s)
  | some (a, .error code) => .trap code (BitVec.ofNat 64 a)
  | none => if s.areaOff areas then .wait (s.areaHold areas) else k s

/-- The same for a word that takes no fault of its own there. -/
def State.areaPark (s : State) (areas : List (Nat × Nat)) (k : State → Res) : Res :=
  match areas.findSome? (fun e => match s.lineMiss e with | some (a, .ok p) => some (a, p) | _ => none) with
  | some (a, p) => (match s.syncPark (BitVec.ofNat 64 a) p with | .stop r => r | .ok _ s => k s)
  | none => if s.areaOff areas then .wait (s.areaHold areas) else k s

/-! ## Contexts -/

/-- The context changed. -/
def State.modCtx (s : State) (id : Nat) (f : Ctx → Ctx) : State :=
  match s.ctx? id with
  | some x => s.setCtx id (f x)
  | none => s
/-- total = 2^n (01 R23). -/
def Ctx.total (x : Ctx) : Nat := 2 ^ x.rcb.nlog.toNat
/-- A saturating 32-bit count. -/
def bump32 (x : W32) (n : Nat) : W32 := if 2 ^ 32 ≤ x.toNat + n then BitVec.allOnes 32 else x + BitVec.ofNat 32 n
/-- This device's endpoint identifier of a core (09 R219). -/
def State.endpoint (s : State) (core : Nat) : W32 := BitVec.ofNat 32 (s.devid * 2 ^ 18 + core)

/-! ## Region events (06 R139, R142) -/

/-- How far a supervisor core's region lies above a context: 0 for its own; none if it does not. -/
def regionDistance (x : Ctx) (c : Core) : Option Nat :=
  if c.supv = false ∨ c.region = 0 then none
  else (findAt (fun a => decide (a = c.region.toNat)) x.lineage 0).map (·.1)

/-- The nearest core of a list, the lowest number on a tie. -/
def nearest : List (Nat × Nat) → Option Nat
  | [] => none
  | (d, n) :: l => some ((l.foldl (fun (b : Nat × Nat) e => if e.1 < b.1 ∨ (e.1 = b.1 ∧ e.2 < b.2) then e else b) (d, n)).2)

/-- The region supervisor core of a context (06 R139). -/
def State.supervisorOf (s : State) (id : Nat) : Option Nat :=
  match s.ctx? id with
  | none => none
  | some x =>
    let all := s.cores.filterMap (fun (e : Nat × Core) =>
      if e.1 < s.ncores then (regionDistance x e.2).map (fun d => (d, e.1)) else none)
    match nearest (all.filter (fun e => decide (sgOf e.2 = sgOf x.home))) with
    | some n => some n
    | none => nearest all

/-- Raises a region event for a context, or holds it at the home core. -/
def State.raiseEvent (s : State) (id : Nat) (code : BitVec 8) : State :=
  match s.supervisorOf id with
  | some n => s.modCore n (fun c => { c with events := c.events ++ [(code, BitVec.ofNat 32 id)] })
  | none => s.modCtx id (fun x => { x with events := x.events ++ [code] })

/-- Events that a home core holds reach the region supervisor core once one is designated (06 R139). -/
def State.raiseHeld (s : State) : State :=
  s.ctxs.foldl (fun (s : State) e =>
    match e.2.events, s.supervisorOf e.1 with
    | [], _ | _, none => s
    | codes, some n => (s.modCore n (fun c => { c with events := c.events ++ codes.map (fun k => (k, BitVec.ofNat 32 e.1)) })).modCtx e.1
        (fun x => { x with events := [] })) s

/-! ## The home counter -/

/-- The home counter changes; it raises QUIESCENT each time it becomes equal to the total (09 R229). -/
def State.setHome (s : State) (id : Nat) (h : Nat) : State :=
  match s.ctx? id with
  | none => s
  | some x =>
    let s' := s.setCtx id { x with H := h }
    if h = x.total ∧ x.H ≠ h then s'.raiseEvent id cQuiescent else s'

/-- Units of a vintage reach the home core: added, or discarded and counted (09 R227). -/
def State.homeAdd (s : State) (id : Nat) (vint : BitVec 16) (units : Nat) : State :=
  match s.ctx? id with
  | none => s
  | some x =>
    if vint = x.vint then s.setHome id (x.H + units)
    else s.setCtx id { x with voidcnt := if x.saved then x.voidcnt else bump32 x.voidcnt 1 }

/-- A weight return leaves a core or a slice. -/
def State.emitReturn (s : State) (n : Nat) (ctx : Nat) (vint : BitVec 16) (units : Nat) : State :=
  s.emit n { src := n, dest := .home ctx, ctx := ctx, body := .wret vint units }

/-- The run is the one that the core runs, and it holds w. -/
def Core.runs (c : Core) (run : Nat) : Bool := decide (c.t.run = run) && decide (c.t.w ≠ 0)

/-- Units that reach a core for a run: added to w while the run holds w; they follow the forwarding entry of a run that has
migrated, and else return home (09 R227). -/
def State.giveUnits (s : State) (n : Nat) (ctx : Nat) (vint : BitVec 16) (units run : Nat) : State :=
  let c := s.coreAt n
  if c.runs run then s.modCore n (fun c => { c with t := { c.t with w := c.t.w + BitVec.ofNat 32 units } })
  else match c.fwd.find? (fun e => decide (e.2.2 = run) && decide (e.1 < 4096)) with
  | some (m, _) => { s with net := s.net ++ [{ src := n, dest := .core m, ctx := ctx, body := .grant vint units run }] }
  | none => { s with net := s.net ++ [{ src := n, dest := .home ctx, ctx := ctx, body := .wret vint units }] }

/-- A core's draw limit (09 R226); 0 for a core that serves no context and has no RCB (log entry 52). -/
def State.drawLimit (s : State) (c : Core) : Nat := ((s.ctxOf c).map (fun x => x.rcb.drawlim.toNat)).getD 0

/-- The word draws: it emits a draw request once, and waits for the grant (09 R226). -/
def State.drawMore (s : State) : Res :=
  let n := s.ev.core
  match s.cur.txn with
  | .draw _ => .wait s.endQuantum
  | txn =>
    let s' := s.modCur (fun c => { c with txn := .draw (match txn with | .drawn g => g | _ => 0) })
    .wait (s'.emit n { src := n, dest := .home s.cur.ctxid.toNat, ctx := s.cur.ctxid.toNat, body := .draw s.cur.t.run }).endQuantum

/-- Take (09 R226): HALF for 0, else a count. -/
def State.take (s : State) (spec : Nat) (k : Nat → State → Res) : Res :=
  let w := s.cur.t.w.toNat
  let x := if spec = 0 then w / 2 else spec
  if 1 ≤ x ∧ x + 1 ≤ w then
    k x (s.modCur (fun c => { c with t := { c.t with w := BitVec.ofNat 32 (w - x) }, txn := .none }))
  else if s.drawLimit s.cur ≤ s.cur.t.draws then .trap cWeightStarved (BitVec.ofNat 64 (max x 1 + 1 - w))
  else s.drawMore

/-! ## Audits (09 R230) -/

/-- The units that a packet of a context holds. -/
def Packet.units (p : Packet) : Nat :=
  match p.body with
  | .msg m _ => m.weight.toNat
  | .start m _ _ => m.weight.toNat
  | .qask m _ => m.weight.toNat
  | .wret _ u => u
  | .grant _ u _ => u
  | .qans _ u _ _ => u
  | .migrate t _ => t.w.toNat
  | _ => 0

/-- The units that a core reports for a context. -/
def Core.audit (c : Core) (id : Nat) : Nat :=
  if c.ctxid.toNat = id then
    c.t.w.toNat + (c.inbox.map (fun m => m.weight.toNat)).sum + (if c.watch.isSome then 1 else 0)
      + (c.mcsts.map (fun m => 1 + m.unit * popUpTo m.failed.toNat 64)).sum
      + (c.copyq.filter (fun k => decide (k.ctx = id))).length
      + (((c.heldOut ++ c.later.map (·.pkt)).filter (fun p => decide (p.ctx = id))).map Packet.units).sum
  else 0

/-- The accounted sum of a context (09 R230). -/
def State.audit (s : State) (id : Nat) : Nat :=
  match s.ctx? id with
  | none => 0
  | some x => x.H + (s.cores.map (fun (e : Nat × Core) => e.2.audit id)).sum
      + ((s.net.filter (fun p => decide (p.ctx = id))).map Packet.units).sum
      + (s.tiles.map (fun (e : Nat × List TileTask) => (e.2.filter (fun t => decide (t.ctx = id))).length)).sum

end Sys2Proof.Machine
end

