-- ==== Sys2Proof/Machine/Frames.lean ====
section
/-!
DEFINITION. Messages as bytes, queues, futures, frames, continuation records, run queues, reclamation and the start of a
handler (09 R217, R232-R235; 12 R263-R282; 02 R34).
-/
namespace Sys2Proof.Machine

/-! ## Messages and slice queues -/

/-- A message as its 64 bytes (09 Table 9-1). -/
def Msg.bytes (m : Msg) : List Byte :=
  toBytes 2 m.kf.toNat ++ toBytes 2 m.vint.toNat ++ toBytes 4 m.weight.toNat ++ toBytes 4 m.src.toNat
    ++ toBytes 4 m.hnd.toNat ++ ((List.range 6).map (fun i => toBytes 8 (m.payload.getD i 0).toNat)).flatten
/-- A number of `n` bytes from place `o` of some bytes. -/
def fieldAt (bs : List Byte) (o n : Nat) : Nat := ofBytes ((bs.drop o).take n)
/-- The message that 64 bytes hold. -/
def Msg.ofBytes (bs : List Byte) (ctx : Nat) : Msg :=
  { kf := BitVec.ofNat 16 (fieldAt bs 0 2), vint := BitVec.ofNat 16 (fieldAt bs 2 2), weight := BitVec.ofNat 32 (fieldAt bs 4 4),
    src := BitVec.ofNat 32 (fieldAt bs 8 4), hnd := BitVec.ofNat 32 (fieldAt bs 12 4),
    payload := (List.range 6).map (fun i => BitVec.ofNat 64 (fieldAt bs (16 + 8 * i) 8)), ctx := ctx }
def Msg.kind (m : Msg) : Nat := (m.kf.extractLsb' 0 4).toNat
def Msg.fut (m : Msg) : Bool := m.kf.getLsbD 7
/-- The value that s10 or s[d+6] shows (02 Table 2-2, 09 R246). -/
def Msg.head (m : Msg) : W64 := m.src ++ m.vint ++ m.kf
/-- A message from hardware: kind, tag, payload. -/
def hwMsg (kind : Nat) (tag : BitVec 8) (vint : BitVec 16) (weight : Nat) (src : W32) (payload : List W64) (ctx : Nat) : Msg :=
  { kf := tag ++ BitVec.ofNat 8 kind, vint := vint, weight := BitVec.ofNat 32 weight, src := src, hnd := 0,
    payload := payload, ctx := ctx }

def Queue.count (q : Queue) : Nat := q.tail - q.head
def Queue.full (q : Queue) : Bool := decide (2 ^ q.k ≤ q.count)
/-- The address of a ring entry. -/
def Queue.entry (q : Queue) (i : Nat) : Nat := q.base.toNat + 64 * (i % 2 ^ q.k)
def State.setQueue (s : State) (h : W32) (q : Queue) : State := { s with queues := FMap.put s.queues (queueKey h) q }

/-- Appends 64 bytes to a queue's ring; none where the ring cannot be written (09 R233). -/
def State.ringPush (s : State) (h : W32) (q : Queue) (bs : List Byte) : Option State :=
  (s.vPut (q.entry q.tail) bs).map (fun s => s.setQueue h { q with tail := q.tail + 1 })
/-- The oldest entry of a queue (09 R246); who takes it has asked that its line can be reached. -/
def State.ringHead (s : State) (q : Queue) : Msg :=
  Msg.ofBytes ((s.vRead (q.entry q.head) 64).getD (List.replicate 64 0)) q.owner.toNat
def State.ringPop (s : State) (h : W32) (q : Queue) : State := s.setQueue h { q with head := q.head + 1 }

/-- A handle is a run queue of its owner (12 R278). -/
def State.isRunQueue (s : State) (h : W32) : Bool := s.ctxs.any (fun e => e.2.rcb.cq.contains h && decide (h ≠ 0))

/-- Gives up the handle holder of a message (08 R201). -/
def State.dropHnd (s : State) (m : Msg) : State := if m.hnd = 0 then s else s.releaseHandle m.hnd

/-! ## Futures (12 R263-R267) -/

def fsPending : Nat := 1
def fsReady : Nat := 2
def fsFailed : Nat := 3
def fsReclaimed : Nat := 4

def State.futState (s : State) (f : Nat) : Nat := s.vNum f 1
def State.futCount (s : State) (f : Nat) : Nat := s.vNum (f + 4) 4

/-- The address is a cell of the context's future heap. -/
def Ctx.isCell (x : Ctx) (f : Nat) : Bool :=
  decide (x.rcb.fheap.toNat ≤ f) && decide (f < x.rcb.fheap.toNat + 32 * x.rcb.fheapn.toNat)
    && decide ((f - x.rcb.fheap.toNat) % 32 = 0)

/-- The lowest free cell. DESIGN CHOICE (log entry 56): 12 R264 says a free cell. -/
def State.freeCell (s : State) (x : Ctx) : Option Nat :=
  ((List.range x.rcb.fheapn.toNat).map (fun i => x.rcb.fheap.toNat + 32 * i)).find? (fun f =>
    match s.vRead f 1 with | some bs => decide (ofBytes bs = 0) | none => false)

/-- A cell returns to the heap once its count is 0 and it is not PENDING (12 R264). -/
def State.settleCell (s : State) (f : Nat) : State :=
  if s.futCount f = 0 ∧ s.futState f ≠ fsPending then s.vSet f 1 0 else s

/-- A tile task's record address is marked for reclamation (12 R267, 15 R353). -/
def State.markTask (s : State) (cell : Nat) : State :=
  { s with tiles := s.tiles.map (fun (e : Nat × List TileTask) =>
      (e.1, e.2.map (fun t => if t.cell.toNat = cell then { t with marked := true } else t))) }

/-- The address that a reference names: its low 56 bits (12 R265). -/
def refOf (x : W64) : Nat := (x.extractLsb' 0 56).toNat

/-- The count of a future changes by one reference given up (12 R264, R265, R267, Table 12-12). -/
def State.dropRef (s : State) (ctx : Nat) (ref : Nat) : State :=
  let f := ref % 2 ^ 56
  let n := s.futCount f
  let s := s.vSet (f + 4) 4 (n - 1)
  if 1 < n then s
  else if s.futState f = fsPending then
    if s.vNum (f + 1) 1 = 1 then s.markTask f
    else { s with net := s.net ++ [{ src := 4096, dest := .home ctx, ctx := ctx,
                                     body := .mark (BitVec.ofNat 64 (s.vNum (f + 0x18) 8)) (BitVec.ofNat 64 f) }] }
  else s.settleCell f

/-- The references that an fmask marks, by register. -/
def markedRegs (fm : BitVec 16) : List Nat := (List.range 16).filterMap (fun i => if fm.getLsbD i then some (i + 4) else none)
def regMark (r : Nat) : BitVec 16 := if 4 ≤ r ∧ r < 20 then (1 : BitVec 16) <<< (r - 4) else 0
def Thread.marked (t : Thread) (r : Nat) : Bool := decide (t.fmask &&& regMark r ≠ 0)
def Core.setMark (c : Core) (r : Nat) (on : Bool) : Core :=
  { c with t := { c.t with fmask := if on then c.t.fmask ||| regMark r else c.t.fmask &&& ~~~(regMark r) } }

/-- Drops every reference that a set of registers holds. -/
def State.dropRefs (s : State) (ctx : Nat) (fs : List Nat) : State := fs.foldl (fun s f => s.dropRef ctx f) s

/-! ## Frames (12 R269, R273) -/

def frCode (f : Nat) : Nat := f
def frJoin (f : Nat) : Nat := f + 0x10
def frLink (f : Nat) : Nat := f + 0xA0
def frParent (f : Nat) : Nat := f + 0xA8
def frFut (f : Nat) : Nat := f + 0xB0
def frState (f : Nat) : Nat := f + 0xB8

/-- The priority of a record. -/
def State.framePrio (s : State) (f : Nat) : Nat := s.vNum (frCode f) 8 / 2 ^ 56 % 16

/-- The free frames, in the order of their chain. -/
def State.freeFrames (s : State) (x : Ctx) : List Nat :=
  ((List.range x.rcb.fpooln.toNat).foldl (fun (acc : List Nat × Nat) _ =>
    if acc.2 = 0 then acc else (acc.1 ++ [acc.2], s.vNum acc.2 8)) (([] : List Nat), x.freeHead.toNat)).1

/-- The index of a frame in its pool. -/
def Ctx.frameIndex (x : Ctx) (f : Nat) : Nat := (f - x.rcb.fpool.toNat) / (if x.rcb.framesz = 0 then 1 else x.rcb.framesz.toNat)
/-- The address is a frame of the context's pool. -/
def Ctx.isFrame (x : Ctx) (f : Nat) : Bool :=
  decide (x.rcb.fpool.toNat ≤ f) && decide (x.frameIndex f < x.rcb.fpooln.toNat)
    && decide (x.rcb.fpool.toNat + x.frameIndex f * x.rcb.framesz.toNat = f)

/-- Takes the lowest free frame; its control area is cleared but for its index. -/
def State.takeFrame (s : State) (ctx : Nat) : Option (Nat × State) :=
  match s.ctx? ctx with
  | none => none
  | some x =>
    if x.freeHead = 0 then none
    else
      let f := x.freeHead.toNat
      let s' := s.setCtx ctx { x with freeHead := BitVec.ofNat 64 (s.vNum f 8) }
      (s'.vPut f (List.replicate 8 0 ++ toBytes 4 (x.frameIndex f) ++ List.replicate 180 0)).map (fun s => (f, s))

/-- A returning frame is linked in at its place in the order of indexes. -/
def State.putFrame (s : State) (ctx : Nat) (f : Nat) : State :=
  match s.ctx? ctx with
  | none => s
  | some x =>
    let below := (s.freeFrames x).filter (fun g => decide (g < f))
    match below.getLast? with
    | none => (s.setCtx ctx { x with freeHead := BitVec.ofNat 64 f }).vSet f 8 x.freeHead.toNat
    | some g => (s.vSet f 8 (s.vNum g 8)).vSet g 8 f

/-! ## Run queues (12 R278-R281) -/

/-- The bytes of a run-queue entry. -/
def runEntry (f weight vint : Nat) : List Byte := toBytes 8 f ++ toBytes 4 weight ++ toBytes 2 vint ++ List.replicate 50 0

/-- LINK of a frame; 0 where it names no frame, as a field out of range is never read as one (12 R270). -/
def State.linkOf (s : State) (x : Ctx) (f : Nat) : Nat :=
  let n := s.vNum (frLink f) 8
  if x.isFrame n then n else 0
/-- The frames of a chain through LINK. -/
def State.chainOf (s : State) (x : Ctx) (f : Nat) : Nat → List Nat
  | 0 => []
  | fuel + 1 => if f ≠ 0 ∧ x.isFrame f = true then f :: s.chainOf x (s.linkOf x f) fuel else []
/-- The last frame of a chain through LINK. -/
def State.chainEnd (s : State) (x : Ctx) (f : Nat) : Nat := (s.chainOf x f (x.rcb.fpooln.toNat + 1)).getLastD f

/-- The frames that a record's enqueuing uses: those of its queue's overflow chain. -/
def State.queueFrames (s : State) (x : Ctx) (q : Nat) : List Nat := s.chainOf x (x.chains.getD q 0).toNat (x.rcb.fpooln.toNat + 1)
/-- The ring entry that it would take. -/
def State.queueEntry (s : State) (x : Ctx) (q : Nat) : List (Nat × Nat) :=
  match s.queueOf (x.rcb.cq.getD q 0) with
  | some qu => [(qu.entry qu.tail, 64)]
  | none => []
/-- A frame control area. -/
def frameArea (f : Nat) : Nat × Nat := (f, 192)
/-- The areas that enqueuing in run queue `q` uses. -/
def State.queueAreas (s : State) (x : Ctx) (q : Nat) : List (Nat × Nat) :=
  s.queueEntry x q ++ (s.queueFrames x q).map frameArea
/-- The waiters of a future. -/
def State.waiters (s : State) (x : Ctx) (fu : Nat) : List Nat := s.chainOf x (s.vNum (fu + 0x10) 8) (x.rcb.fpooln.toNat + 1)
/-- The areas that resolving a future uses: its cell, and each waiter with its run queue. -/
def State.wakeAreas (s : State) (x : Ctx) (fu : Nat) : List (Nat × Nat) :=
  (fu, 32) :: (s.waiters x fu).flatMap (fun g => frameArea g :: s.queueAreas x (s.framePrio g))
/-- The free frame that a run or a START would take. -/
def Ctx.freeArea (x : Ctx) : List (Nat × Nat) := if x.freeHead = 0 then [] else [frameArea x.freeHead.toNat]

/-- Links a frame to the tail of a queue's overflow chain (12 R279). -/
def State.chainPush (s : State) (ctx : Nat) (x : Ctx) (q f : Nat) : State :=
  let head := (x.chains.getD q 0).toNat
  let s := s.vSet (frLink f) 8 0
  if head = 0 then s.setCtx ctx { x with chains := setAt x.chains q (BitVec.ofNat 64 f) }
  else s.vSet (frLink (s.chainEnd x head)) 8 f

/-- A record is due in run queue `q`: into the ring, or on the overflow chain. -/
def State.enqueue (s : State) (ctx : Nat) (q f : Nat) : State :=
  match s.ctx? ctx with
  | none => s
  | some x =>
    let s := s.vSet (frState f) 1 1
    let h := x.rcb.cq.getD q 0
    match s.queueOf h with
    | some qu =>
      if qu.full || decide (x.chains.getD q 0 ≠ 0) then s.chainPush ctx x q f
      else (s.ringPush h qu (runEntry f (s.vNum (f + 0xC) 4) (s.vNum (f + 0x14) 2))).getD (s.chainPush ctx x q f)
    | none => s.chainPush ctx x q f

/-- Enqueues each frame of a waiter list at its priority, oldest first (12 R292). -/
def State.wakeList (s : State) (ctx : Nat) (fs : List Nat) : State :=
  fs.foldl (fun (s : State) f => (s.vSet (frLink f) 8 0).enqueue ctx (s.framePrio f) f) s

/-- Resolves a PENDING future (12 R264, R292): its state and value, and its waiters. -/
def State.resolve (s : State) (ctx : Nat) (f st value : Nat) : State :=
  let fs := ((s.ctx? ctx).map (fun x => s.waiters x f)).getD []
  ((((s.vSet f 1 st).vSet (f + 8) 8 value).vSet (f + 0x10) 8 0).settleCell f).wakeList ctx fs

/-- A frame whose task has ended returns when no child is left (12 R273): its parent loses a child, and a parent that waits
in `sync` is enqueued. A PARENT that names no frame is none (12 R270). -/
def State.returnFrame (s : State) (ctx : Nat) (f : Nat) : State :=
  let p := s.vNum (frParent f) 8
  let parent := if ((s.ctx? ctx).map (fun x => x.isFrame p)).getD false then p else 0
  let s := (s.putFrame ctx f).modCtx ctx (fun x => { x with ended := x.ended.filter (fun e => decide (e.toNat ≠ f)) })
  if parent = 0 then s
  else
    let j := s.vNum (frJoin parent) 4
    let s := s.vSet (frJoin parent) 4 (j - 1)
    if j = 1 ∧ s.vNum (frState parent) 1 = 3 then s.enqueue ctx (s.framePrio parent) parent else s

/-- The task of a frame has ended (12 R273). -/
def State.endFrame (s : State) (ctx : Nat) (f : Nat) : State :=
  if f = 0 then s
  else (s.vSet (frState f) 1 4).modCtx ctx (fun x => { x with ended := x.ended ++ [BitVec.ofNat 64 f] })

/-! ## Cordons (12 R287) -/

/-- Lanes and size are numbered in order. -/
def State.renumber (s : State) (n : Nat) : State :=
  let ms := s.cordonOf n
  let size := BitVec.ofNat 5 ms.length
  (ms.zip (List.range ms.length)).foldl (fun (s : State) e =>
    s.modCore e.1 (fun c => { c with lane := BitVec.ofNat 4 e.2, cordsz := size })) s

/-- A member leaves its cordon; the lowest remaining lane leads. The frame of the run goes with its lane 0. -/
def State.leaveCordon (s : State) (n : Nat) : State :=
  let rest := (s.cordonOf n).filter (fun m => decide (m ≠ n))
  let first : Bool := decide ((s.coreAt n).lane = 0)
  let s := s.modCore n (fun c => { c with members := [], leader := none, lane := 0, cordsz := 1, tretWait := false, tretGo := false })
  match rest with
  | [] => s
  | lead :: ms =>
    let s := s.modCore lead (fun c => { c with members := ms, leader := none })
    let s := ms.foldl (fun s m => s.modCore m (fun c => { c with leader := some lead })) s
    if first then rest.foldl (fun s m => s.modCore m (fun c => { c with t := { c.t with frame := 0 } })) s else s

/-! ## FLAGS at an end (05 R112) -/

/-- The flags of an ending run join FLAGSUM.ACC of its region and supergroup. -/
def State.sumFlags (s : State) (n : Nat) : State :=
  let c := s.coreAt n
  let k := flagKey c.ctxid (sgOf n)
  let fl := c.t.finish.flags
  { s with flagAcc := FMap.put s.flagAcc k (FMap.getD s.flagAcc k 0 ||| fl)
           flagNew := s.flagNew.filter (fun e => decide (e.2.1 = s.cycle)) ++ [(k, s.cycle, fl)] }

/-! ## Continuation writes (12 R271) -/

/-- The handle slot of a record (08 R201). -/
def Handle.slot (h : Handle) : W64 := (0#30 ++ h.scope.bits ++ h.id : BitVec 64)
def slotHandle (x : Nat) : Handle := { id := BitVec.ofNat 32 x, scope := Scope.ofBits (BitVec.ofNat 2 (x / 2 ^ 32)) }

/-- The mask of a record: the scalar registers asked for, and with PH every predicate that is not 0 and every handle
register that is not empty. -/
def Thread.saveMask (t : Thread) (mask : Nat) (ph : Bool) : Nat :=
  let ps := (List.range 7).foldl (fun m i => if t.file .p (i + 1) ≠ 0 then m + 2 ^ (32 + i) else m) 0
  let hs := (List.range 15).foldl (fun m i => if (t.h.toList.getD (i + 1) none).isSome then m + 2 ^ (39 + i) else m) 0
  mask + (if ph then ps + hs else 0)

/-- The slots of a mask in order: s1-s31, p1-p7, h1-h15. -/
def Thread.slots (t : Thread) (m : Nat) : List Nat :=
  (List.range 54).filterMap (fun i =>
    if m.testBit i then
      some (if i < 32 then (t.file .s i).toNat else if i < 39 then (t.file .p (i - 31)).toNat
        else ((t.h.toList.getD (i - 38) none).map (fun h => h.slot.toNat)).getD 0)
    else none)

/-- The cells of the references that some registers hold. -/
def Thread.refAreas (t : Thread) (l : List Nat) : List (Nat × Nat) := l.map (fun r => ((t.file .s r).toNat % 2 ^ 56, 32))
/-- The marked registers that a record does not keep: it gives up their references (12 R271). -/
def Thread.lostRegs (t : Thread) (m : Nat) : List Nat := (markedRegs t.fmask).filter (fun r => !m.testBit r)

/-- How a continuation write leaves its record. -/
inductive ParkAt where
  | queue (q : Nat)
  /-- at the tail of a future's waiters -/
  | future (f : Nat)
  | sync
  deriving DecidableEq, Repr

/-- Writes the record of core `n`'s run and leaves the core idle. The checks come first, and then nothing can stop it. -/
def State.contWrite (s : State) (n : Nat) (pc : W64) (mask : Nat) (ph : Bool) (prio : Nat) (park : ParkAt) : Res :=
  let c := s.coreAt n
  let t := c.t.finish
  let ctx := c.ctxid.toNat
  let m := t.saveMask mask ph
  let k := popUpTo m 54
  if 16 < k then .trap cFuture (futureTval 1 (BitVec.ofNat 64 k))
  else match (if t.frame = 0 ∨ c.lane ≠ 0 then s.takeFrame ctx else some (t.frame.toNat, s)) with
  | none => .trap cFuture (futureTval 2 0)
  | some (f, s) =>
    let s := s.sumFlags n
    let fm := (markedRegs t.fmask).foldl (fun (a : BitVec 16) r => if m.testBit r then a ||| regMark r else a) 0
    let s := s.vSet f 8 ((pc.toNat % 2 ^ 56) + prio * 2 ^ 56)
    let s := s.vSet (f + 8) 4 (match s.ctx? ctx with
      | some x => x.frameIndex f | none => 0)
    let s := (((s.vSet (f + 0xC) 4 t.w.toNat).vSet (f + 0x14) 2 t.vint.toNat).vSet (f + 0x16) 2 fm.toNat).vSet (f + 0x18) 8 m
    let s := (s.vPut (f + 0x20) ((t.slots m).map (toBytes 8)).flatten).getD s
    let s := s.dropRefs ctx ((t.lostRegs m).map (fun r => (t.file .s r).toNat))
    let s := (List.range 15).foldl (fun (s : State) i =>
      match t.h.toList.getD (i + 1) none with
      | some h => if m.testBit (39 + i) then s else s.releaseHandle h.id
      | none => s) s
    let s := s.modCore n (fun c => { c with t := { t with frame := 0 }, ready := max c.ready c.t.divDue })
    let s := s.modCore n Core.goIdle
    let s := s.homeAdd ctx t.vint t.w.toNat
    .ok (match park with
      | .queue q => s.enqueue ctx q f
      | .sync => s.vSet (frState f) 1 3
      | .future fu =>
        let s := (s.vSet (frState f) 1 2).vSet (frLink f) 8 0
        match (((s.ctx? ctx).map (fun x => s.waiters x fu)).getD []).getLast? with
        | none => s.vSet (fu + 0x10) 8 f
        | some g => s.vSet (frLink g) 8 f)

/-! ## Reclamation (12 R267, R268) -/

/-- The future that the task of a frame has still to resolve: its own, PENDING, with the frame as producer (12 Table 12-1). An
OWNFUT that names no cell is none; `end` takes no FUTURE for an area out of range (09 R248, R257, 12 R270, log entry 52). -/
def State.owes (s : State) (f : Nat) : Option Nat :=
  let fu := s.vNum (frFut f) 8
  if f ≠ 0 ∧ s.ctxs.any (fun e => e.2.isCell fu) = true ∧ s.futState fu = fsPending ∧ s.vNum (fu + 1) 1 = 0 ∧ s.vNum (fu + 0x18) 8 = f then some fu else none

/-- What an end uses of memory: the cells of the references that it gives up, its frame, and its future with the waiters. -/
def State.endAreas (s : State) (n : Nat) : List (Nat × Nat) :=
  let t := (s.coreAt n).t.finish
  let f := t.frame.toNat
  t.refAreas (markedRegs t.fmask)
    ++ (if f = 0 ∨ (s.coreAt n).lane ≠ 0 then [] else frameArea f :: (match s.owes f, s.ctxOf (s.coreAt n) with
        | some fu, some x => s.wakeAreas x fu
        | _, _ => []))

/-- The own future of a reclaimed task, and its frame. -/
def State.reclaimFrame (s : State) (ctx f : Nat) : State :=
  if f = 0 then s
  else
    let s := match s.owes f with | some fu => (s.vSet fu 1 fsReclaimed).settleCell fu | none => s
    s.endFrame ctx f

/-- Reclaims the run of one core. -/
def State.reclaimCore (s : State) (n : Nat) : State :=
  let c := s.coreAt n
  let ctx := c.ctxid.toNat
  let t := c.t.finish
  let s := (s.sumFlags n).emitReturn n ctx t.vint t.w.toNat
  let s := s.dropRefs ctx ((markedRegs t.fmask).map (fun r => (t.file .s r).toNat))
  let s := (t.h.toList.drop 1).foldl (fun (s : State) h => match h with | some h => s.releaseHandle h.id | none => s) s
  let s := s.modCore n (fun c => { c.goIdle with
    t := { t with w := 0, fmask := 0, h := Vector.replicate 16 none, frame := 0 } })
  s.reclaimFrame ctx t.frame.toNat

/-- The members of a cordon are on their own again, as cores of the context. -/
def State.dissolve (s : State) (ms : List Nat) : State :=
  ms.foldl (fun s m => s.modCore m (fun c => { c with members := [], leader := none, lane := 0, cordsz := 1 })) s

/-- A run reaches a reclamation point with its mark set (12 R267): the whole cordon is reclaimed once its stores are
performed. The word at the point does not count (03 R66). -/
def State.reclaimPoint (s : State) (k : State → Res) : Res :=
  if s.cur.marked then
    let n := s.ev.core
    let ms := s.cordonOf n
    let s := s.meet ms
    if ms.any (fun m => !(s.coreAt m).replay.isEmpty) then .wait (ms.foldl State.reissue s)
    else if ms.any (fun m => (s.coreAt m).uncleared || decide (0 < (s.coreAt m).unacked) || (s.coreAt m).dividing)
        || (s.isDet s.cur && !s.cur.qgo) then .wait s.endQuantum
    else s.areaPark (ms.flatMap s.endAreas) (fun s =>
      let s := s.modCur (fun c => { c with instret := c.iss.instret })
      .ok ((ms.foldl (fun s m => s.reclaimCore m) s).dissolve ms).endQuantum)
  else k s

/-- Reclaims a task at rest: its record's references and handles go, and its run-queue entry is void. -/
def State.reclaimRest (s : State) (ctx f : Nat) : State :=
  match s.ctx? ctx with
  | none => s
  | some x =>
    let m := s.vNum (f + 0x18) 8
    let fm : BitVec 16 := BitVec.ofNat 16 (s.vNum (f + 0x16) 2)
    let slot (bit : Nat) : Nat := s.vNum (f + 0x20 + 8 * popUpTo m bit) 8
    let refs := ((markedRegs fm).filter (fun r => m.testBit r)).map slot
    let hs := (List.range 15).filterMap (fun i => if m.testBit (39 + i) then some (slotHandle (slot (39 + i))) else none)
    -- the entry in its ring becomes void, or the frame leaves its chain
    let s := x.rcb.cq.foldl (fun (s : State) h =>
      match s.queueOf h with
      | some q => (List.range q.count).foldl (fun (s : State) i =>
          let e := q.entry (q.head + i)
          if s.vNum e 8 = f ∧ s.vNum (e + 0xE) 1 % 2 = 0 then s.vSet (e + 0xE) 1 1 else s) s
      | none => s) s
    let s := s.dropRefs ctx refs
    let s := hs.foldl (fun (s : State) h => s.releaseHandle h.id) s
    s.reclaimFrame ctx f

/-- Takes a frame out of a LINK chain: the new head. -/
def State.unlink (s : State) (x : Ctx) (head f : Nat) : State × Nat :=
  match (s.chainOf x head (x.rcb.fpooln.toNat + 1)).takeWhile (fun g => decide (g ≠ f)) with
  | [] => (s, if head = f then s.linkOf x f else head)
  | g :: l => (if s.linkOf x ((g :: l).getLastD g) = f then s.vSet (frLink ((g :: l).getLastD g)) 8 (s.linkOf x f) else s, head)

/-- A void record on an overflow chain leaves the chain. -/
def State.unchain (s : State) (ctx f : Nat) : State :=
  match s.ctx? ctx with
  | none => s
  | some x =>
    let r := x.chains.foldl (fun (acc : State × List W64) h =>
      let (s', n) := acc.1.unlink x h.toNat f
      (s', acc.2 ++ [BitVec.ofNat 64 n])) (s, ([] : List W64))
    r.1.modCtx ctx (fun x => { x with chains := r.2 })

/-- A record leaves the waiters of the futures of its context. -/
def State.unwait (s : State) (ctx f : Nat) : State :=
  match s.ctx? ctx with
  | none => s
  | some x => (List.range x.rcb.fheapn.toNat).foldl (fun (s : State) i =>
      let fu := x.rcb.fheap.toNat + 32 * i
      let w := s.vNum (fu + 0x10) 8
      if s.futState fu = fsPending ∧ w ≠ 0 then
        let (s', n) := s.unlink x w f
        if n = w then s' else s'.vSet (fu + 0x10) 8 n
      else s) s

/-- The core that runs the task of a frame. -/
def State.runnerOf (s : State) (ctx f : Nat) : Option Nat :=
  (s.cores.find? (fun e => decide (e.2.ctxid.toNat = ctx) && decide (e.2.run ≠ .idle) && decide (e.2.t.frame.toNat = f)
    && decide (f ≠ 0) && decide (e.2.leader = none))).map (·.1)

/-- The word that waits is cancelled: its draw request, its place among a queue's sleepers and its barrier arrival go. -/
def State.cancel (s : State) (n : Nat) : State :=
  let c := s.coreAt n
  let isDraw (p : Packet) : Bool := decide (p.body = .draw c.t.run) && decide (p.src = n)
  let s := match c.txn with
    | .draw _ => ({ s with net := s.net.filter (fun p => !isDraw p) }).modCtx c.ctxid.toNat
        (fun x => { x with draws := x.draws.filter (fun e => decide (e.1 ≠ n)) })
    | .asleep h => (match s.queueOf h with
        | some q => s.setQueue h { q with sleepers := q.sleepers.filter (· ≠ n) }
        | none => s)
    | _ => s
  s.modCore n (fun c => { c with txn := .none, fpark := none, listed := none })

/-- The accesses that are neither cleared nor lanes: where the first is parked, or sleeps in `waita`, its word and every
later one are cancelled; at the boundary of an asynchronous cause (`vec`) also where it is a `vld` or `vamo` that has performed
nothing (13 R329). -/
def State.cancelParked (s : State) (n : Nat) (vec : Bool := false) : State :=
  let c := s.coreAt n
  match findAt (fun (a : Access) => !a.cleared && !a.isLane) c.mem 0 with
  | some (k, x) =>
    let asleep : Bool := match c.txn with | .waita t true => decide (t = x.tag) | _ => false
    let vector : Bool := !x.performed && (match x.kind, x.form with | .vatomic _ _ _ _, _ => true | .load, .vec _ => true | _, _ => false)
    if x.parked.isSome || asleep || (vec && vector) then s.rollback n k x else s
  | none => s

/-- A core sleeps in a word that an asynchronous cause would cancel (06 R142): in a cordon `fget` and `sync` are such words
(12 R286). -/
def Core.sleeps (c : Core) : Bool :=
  decide (c.slot = .waiting) && (match c.txn with
    | .waita _ a => a
    | .asleep _ => true
    | .draw _ | .barrier _ _ _ | .marks _ _ => true
    | _ => decide (1 < c.cordsz.toNat) && decide (c.pl = 0)
        && (match decodeWord c.iss.insn with | .ok { i := .fget _ _ _, .. } | .ok { i := .sync _ _, .. } => true | _ => false))

/-- A marked run that is asleep in a word that an asynchronous cause would cancel is reclaimed at once (12 R267). -/
def State.reclaimAsleep (s : State) (n : Nat) : State :=
  let c := s.coreAt n
  let ms := s.cordonOf n
  if c.marked = true ∧ ms.any (fun m => (s.coreAt m).sleeps) = true then
    let r := ms.foldl (fun (s : State) m => (s.cancelParked m).cancel m) s
    -- held words are completed first (13 R332)
    if ms.any (fun m => !(r.coreAt m).replay.isEmpty) then ms.foldl (fun s m => s.reissue m) r
    else if ms.all (fun m => !(r.coreAt m).uncleared && decide ((r.coreAt m).unacked = 0)
        && !(r.coreAt m).dividing && !r.areaWait (r.endAreas m)) then
      (ms.foldl (fun s m => s.reclaimCore m) r).dissolve ms
    else s
  else s

/-- What the reclamation of a task at rest uses: its frame and future, the cells of the references in its record, and the run queues
or the waiters that its frame leaves. -/
def State.markAreas (s : State) (x : Ctx) (f fu : Nat) : List (Nat × Nat) :=
  let m := s.vNum (f + 0x18) 8
  let st := s.vNum (frState f) 1
  let refs := (markedRegs (BitVec.ofNat 16 (s.vNum (f + 0x16) 2))).filter (fun r => m.testBit r)
  [frameArea f, (fu, 32)] ++ refs.map (fun r => (s.vNum (f + 0x20 + 8 * popUpTo m r) 8 % 2 ^ 56, 32))
    ++ (if st = 1 ∨ st = 3 then
          x.rcb.cq.flatMap (fun h => match s.queueOf h with
            | some q => (List.range q.count).map (fun i => (q.entry (q.head + i), 64))
            | none => [])
          ++ (List.range x.chains.length).flatMap (fun q => (s.queueFrames x q).map frameArea)
        else if st = 2 then
          (List.range x.rcb.fheapn.toNat).flatMap (fun i =>
            (x.rcb.fheap.toNat + 32 * i, 32) :: (s.waiters x (x.rcb.fheap.toNat + 32 * i)).map frameArea)
        else [])

/-- A reclamation mark reaches the home core (12 R267). -/
def State.serveMark (s : State) (ctx f fut : Nat) : State :=
  match s.ctx? ctx with
  | none => s
  | some x =>
    if x.saved then s.setCtx ctx { x with marks := x.marks ++ [(BitVec.ofNat 64 f, BitVec.ofNat 64 fut)] }
    -- the frame may have returned and been taken again: the mark is the producer's of this future alone
    else if s.owes f ≠ some fut then s
    else match s.runnerOf ctx f with
      | some m =>
        ((s.cordonOf m).foldl (fun (s : State) k => s.modCore k (fun c => { c with marked := true })) s).reclaimAsleep m
      | none =>
        let st := s.vNum (frState f) 1
        if st = 1 ∨ st = 3 then (s.unchain ctx f).reclaimRest ctx f
        else if st = 2 then (s.unwait ctx f).reclaimRest ctx f
        else s

/-! ## Starting and resuming (02 R34, 12 R272, 07 R172) -/

/-- The generator descriptors that a start installs: a slot that cannot be read, or fails a check, is off. -/
def State.loadGens (s : State) (x : Ctx) : Vector (BitVec 512) 8 :=
  Vector.ofFn (fun (g : Fin 8) =>
    if x.rcb.genblk = 0 then 0
    else match s.vRead (x.rcb.genblk.toNat + 64 * g.val) 64 with
      | some bs => let d : BitVec 512 := BitVec.ofNat 512 (ofBytes bs); if genValid d then d else 0
      | none => 0)

/-- The walk that the read of the descriptors meets an invalid entry in: where it parks (07 R172, R181). -/
def State.gensPark (s : State) (x : Ctx) : Option (Nat × Nat) :=
  if x.rcb.genblk = 0 then none
  else (List.range 8).findSome? (fun g =>
    let a : W64 := x.rcb.genblk + BitVec.ofNat 64 (64 * g)
    match s.window a with
    | .paged => match s.look a.toNat with
      | .invalid p => if 256 ≤ s.monitors (s.homeSlice a.toNat) then none else some (s.parkKey p (s.homeSlice a.toNat), s.time)
      | _ => none
    | _ => none)

/-- A core starts a run of a context: the thread, user level, the save routine in TVEC (06 R131, R136). -/
def State.startRun (s : State) (n : Nat) (x : Ctx) (t : Thread) : State :=
  let gens := s.loadGens x
  { s with nextRun := s.nextRun + 1 }.modCore n (fun c => { c.coherent (s.codeFor n) with
    t := { t with gens := gens, run := s.nextRun }, pl := 0, tvec := x.rcb.savert &&& 0x00FF_FFFF_FFFF_FFF8, run := .running, slot := .done,
    txn := .none, marked := false, preempt := c.yreq, popReq := false, gpark := s.gensPark x })

/-- A handler starts from a message (02 R34). -/
def State.startHandler (s : State) (n : Nat) (x : Ctx) (m : Msg) (pc : W64) (prio : BitVec 4) (h : Option Handle) : State :=
  let regs := (m.payload.zip (List.range 6)).foldl (fun (r : Vector W64 32) e => r.setIfInBounds (4 + e.2) e.1)
    (Thread.reset.s.setIfInBounds 10 m.head)
  s.startRun n x { Thread.reset with
    s := regs, h := Thread.reset.h.setIfInBounds 15 h, w := m.weight, fmask := if m.fut then 1 else 0, pc := pc,
    prio := prio, vint := m.vint }

/-- A frame control area is in range (12 R270, Tables 12-2 and 12-4); reserved bits are ignored (00 R6). -/
def State.frameOk (s : State) (x : Ctx) (f : Nat) : Bool :=
  let m := s.vNum (f + 0x18) 8
  let fm : BitVec 16 := BitVec.ofNat 16 (s.vNum (f + 0x16) 2)
  let frame (a : Nat) : Bool := decide (a = 0) || x.isFrame a
  let fut := s.vNum (frFut f) 8
  decide (s.vNum f 8 % 4 = 0) && decide (s.vNum (f + 8) 4 = x.frameIndex f)
    && decide (m % 2 = 0) && decide (m < 2 ^ 54) && decide (popUpTo m 54 ≤ 16) && (markedRegs fm).all (fun r => m.testBit r)
    && frame (s.vNum (frLink f) 8) && frame (s.vNum (frParent f) 8) && (decide (fut = 0) || x.isCell fut)
    && decide (s.vNum (frState f) 1 ≤ 4)

/-- A core resumes a record (12 R272). -/
def State.resumeRecord (s : State) (n : Nat) (x : Ctx) (f : Nat) : State :=
  let m := s.vNum (f + 0x18) 8
  let slot (bit : Nat) : Nat := s.vNum (f + 0x20 + 8 * popUpTo m bit) 8
  let code := s.vNum f 8
  let t : Thread := { Thread.reset with
    s := Vector.ofFn (fun (r : Fin 32) => if r.val ≠ 0 ∧ m.testBit r.val then BitVec.ofNat 64 (slot r.val) else 0)
    p := Vector.ofFn (fun (r : Fin 8) => if r.val ≠ 0 ∧ m.testBit (31 + r.val) then BitVec.ofNat 64 (slot (31 + r.val)) else 0)
    h := Vector.ofFn (fun (r : Fin 16) => if r.val ≠ 0 ∧ m.testBit (38 + r.val) then some (slotHandle (slot (38 + r.val))) else none)
    w := BitVec.ofNat 32 (s.vNum (f + 0xC) 4), fmask := BitVec.ofNat 16 (s.vNum (f + 0x16) 2),
    pc := BitVec.ofNat 64 (code % 2 ^ 56), prio := BitVec.ofNat 4 (code / 2 ^ 56), frame := BitVec.ofNat 64 f,
    vint := x.vint }
  (s.vSet (frState f) 1 0).startRun n x t

/-- Writes the record of a START in a new frame and enqueues it (12 R278). -/
def State.startRecord (s : State) (ctx : Nat) (m : Msg) (prio : Nat) (code : W64) : Option State :=
  (s.takeFrame ctx).map (fun (f, s) =>
    let sc := if m.hnd = 0 then Scope.core else s.scopeOf m.hnd
    let mask := 0x7F0 + (if m.hnd = 0 then 0 else 2 ^ 53)
    let s := s.vSet f 8 (code.toNat % 2 ^ 56 + prio * 2 ^ 56)
    let s := s.vSet (f + 8) 4 (match s.ctx? ctx with
      | some x => x.frameIndex f | none => 0)
    let s := ((s.vSet (f + 0xC) 4 m.weight.toNat).vSet (f + 0x14) 2 m.vint.toNat).vSet (f + 0x16) 2 (if m.fut then 1 else 0)
    let s := s.vSet (f + 0x18) 8 mask
    let slots := (List.range 6).map (fun i => (m.payload.getD i 0).toNat) ++ [m.head.toNat]
      ++ (if m.hnd = 0 then [] else [({ id := m.hnd, scope := sc : Handle }).slot.toNat])
    let s := (s.vPut (f + 0x20) (slots.map (toBytes 8)).flatten).getD s
    s.enqueue ctx prio f)

end Sys2Proof.Machine
end

