-- ==== Sys2Proof/Machine/Control.lean ====
section
/-!
DEFINITION. Branches, jumps, `trap`, `tret` (06 R149-R152) and the return of a cordon (06 R144).
-/
namespace Sys2Proof.Machine

/-- The address of the bundle that holds the word being issued. -/
def Core.bundle (c : Core) : W64 := c.iss.pc &&& ~~~(7 : W64)
/-- A transfer: the target slot issues `n` cycles after the word (06 R149, R150). -/
def State.transfer (s : State) (pc : W64) (n : Nat) : State :=
  s.modCur (fun c => { c.jump pc with ready := s.cycle + n + c.iss.stall })

/-- A branch (06 R149): a taken backward one is a reclamation point. -/
def branchTo (i : Instr) (disp : BitVec 10) (cond : State → Bool) (s : State) : Host.Outcome State Fault Refusal :=
  runWord i s (fun s =>
    -- in a cordon the leader's outcome is used; in a trap routine each member runs on its own (06 R144)
    let lead := if s.cur.pl = 0 then (s.cur.leader).getD s.ev.core else s.ev.core
    let taken : Bool := cond { s with ev := { s.ev with core := lead } }
    let go (s : State) : Res := .ok (s.transfer (s.cur.bundle + 8 * disp.signExtend 64) 2)
    if taken then (if (disp.toInt ≤ 0) then s.reclaimPoint go else go s) else .ok s)

def brWord (i : Instr) (code : Nat) (neg : Bool) (a b : BitVec 5) (disp : BitVec 10) (s : State) :=
  branchTo i disp (fun s =>
    let x := s.rs a
    let y := s.rs b
    let r : Bool := match code with | 0 => x == y | 1 => x.slt y | _ => x.ult y
    r != neg) s

def execBrEq (a b : BitVec 5) (i : BitVec 10) (s : State) := brWord (.brEq a b i) 0 false a b i s
def execBrNe (a b : BitVec 5) (i : BitVec 10) (s : State) := brWord (.brNe a b i) 0 true a b i s
def execBrLt (a b : BitVec 5) (i : BitVec 10) (s : State) := brWord (.brLt a b i) 1 false a b i s
def execBrLtu (a b : BitVec 5) (i : BitVec 10) (s : State) := brWord (.brLtu a b i) 2 false a b i s
def execBrGe (a b : BitVec 5) (i : BitVec 10) (s : State) := brWord (.brGe a b i) 1 true a b i s
def execBrGeu (a b : BitVec 5) (i : BitVec 10) (s : State) := brWord (.brGeu a b i) 2 true a b i s
def execBrp (n : BitVec 3) (m : BitVec 2) (i : BitVec 10) (s : State) : Host.Outcome State Fault Refusal :=
  branchTo (.brp n m i) i (fun s =>
    let p := s.rp n
    match m.toNat with | 0 => p.getLsbD 0 | 1 => !p.getLsbD 0 | 2 => p != 0 | _ => p == 0) s

/-- `jmp`, `jal`, `jr` (06 R150). -/
def execJmp (i : BitVec 20) (s : State) : Host.Outcome State Fault Refusal :=
  runWord (.jmp i) s (fun s => .ok (s.transfer (s.cur.bundle + 8 * i.signExtend 64) 2))
def execJal (i : BitVec 20) (s : State) : Host.Outcome State Fault Refusal :=
  runWord (.jal i) s (fun s =>
    .ok ((s.outS 1 (s.cur.bundle + 8) 1).transfer (s.cur.bundle + 8 * i.signExtend 64) 2))
def execJr (d a : BitVec 5) (i : BitVec 10) (s : State) : Host.Outcome State Fault Refusal :=
  runWord (.jr d a i) s (fun s =>
    let t := s.rs a + 8 * i.signExtend 64
    if t.extractLsb' 0 3 ≠ 0 then .trap cBadTarget t
    else .ok ((s.outS d (s.cur.bundle + 8) 1).transfer t 3))

/-- `trap` (06 R151). -/
def execTrap (i : BitVec 20) (s : State) : Host.Outcome State Fault Refusal :=
  runWord (.trap i) s (fun s =>
    .trap cUserTrap (i.setWidth 64 ||| (bit64 s.cur.iss.lone1 <<< 32)))

/-! ## Cordons -/

/-- The bundle at an address as memory holds it now, if it can be read. -/
def State.bundleAt (s : State) (a : W64) : Option W64 :=
  if s.absentUnit a || !s.fetchable a then none
  else match s.readLocs ((List.range 8).map (fun i => s.locate (a + BitVec.ofNat 64 i))) .bypass none with
    | .ok bs _ => some (BitVec.ofNat 64 (ofBytes bs))
    | _ => none

/-- An address that `tret` can resume at (03 R54): word 1 only of a lone bundle. -/
def State.resumable (s : State) (pc : W64) : Bool :=
  decide (pc.extractLsb' 0 2 = 0)
    && (!pc.getLsbD 2 || ((s.bundleAt (pc &&& ~~~(7 : W64))).map isLone).getD true)

/-- An asynchronous cause is pending at the core. -/
def Core.asyncPending (c : Core) : Bool := c.preempt || !c.events.isEmpty

/-- A core returns from its trap: its first slot issues 6 cycles after its `tret`, and fetch is coherent (06 R152, 03 R55).
A routine that was entered from `idle` returns to the slot after it, where the next pending cause is taken (06 R142, R152; 11
R262). -/
def State.returnOf (s : State) (m : Nat) : State :=
  s.modCore m (fun c =>
    let toIdle : Bool := decide (c.pl = 1) && decide (c.ppl ≠ 0) && decide (c.idleAt = some c.tpc)
    { c.trapReturn.coherent (s.codeFor m) with
      ready := max (s.cycle + 6 + c.iss.stall) c.t.divDue, tretWait := false, tretGo := false, slot := .done
      run := if toIdle && c.asyncPending then .waking else c.run
      idleAt := if c.pl = 1 && !(toIdle && c.asyncPending) then none else c.idleAt })

/-- `tret` (06 R152, R144): in a cordon a return to user level waits until every member has issued it with the same TPC; then
each member's completes, at its own slot. The cordon's lanes are numbered again (12 R287). -/
def execTret (s : State) : Host.Outcome State Fault Refusal :=
  runWord .tret s (fun s => s.clearedThen (fun s =>
    let n := s.ev.core
    let tpc := s.cur.tpc
    let ms := s.cordonOf n
    if s.cur.tretGo then .ok (s.returnOf n)
    else if s.resumable tpc = false then .trap cBadTarget tpc
    else if s.cur.ppl ≠ 0 then .ok (s.returnOf n)
    else if ms.length ≤ 1 then .ok ((s.returnOf n).renumber n)
    else
      let s := s.modCur (fun c => { c with tretWait := true })
      if ms.all (fun m => (s.coreAt m).tretWait && decide ((s.coreAt m).tpc = tpc)) then
        let s := ms.foldl (fun (s : State) m => s.modCore m (fun c => { c with tretGo := true })) s
        .ok ((s.renumber n).returnOf n)
      else .wait s))

/-! ## Causes of a whole slot (03 R54, R76; 06 R144) -/

/-- Causes that a slot's fetch or bundle has: in a cordon every member traps, at `resume`. -/
def State.slotTrap (s : State) (n : Nat) (causes : List (Nat × BitVec 8 × W64)) (resume : W64) (alone : State) : State :=
  let ms := s.cordonOf n
  if ms.length ≤ 1 ∨ (s.coreAt n).pl ≠ 0 then alone
  else if ms.any (fun m => (s.coreAt m).uncleared) then
    ms.foldl (fun (s : State) m => s.modCore m (fun c => { c with slot := .waiting })) s
  else s.cordonTrap ms causes resume

/-- The fetch of core `n`, which drives its cordon, fails. -/
def State.fetchFail (s : State) (n : Nat) (code : BitVec 8) : State :=
  s.slotTrap n [(n, code, faultTval code ((s.coreAt n).t.pc &&& ~~~(7 : W64)))] (s.coreAt n).t.pc (s.fetchTrap n code)

end Sys2Proof.Machine
end

