-- ==== Sys2Proof/Machine/Messages.lean ====
section
/-!
DEFINITION. The message, weight, queue and barrier words (09 R243-R255).
-/
namespace Sys2Proof.Machine

/-! ## Emitting (09 R220, R243-R245) -/

/-- TYPE of a destination value (09 Table 9-4). -/
def destType (v : W64) : Nat := (v.extractLsb' 62 2).toNat
/-- The code pointer of a run-queue destination. -/
def destCode (v : W64) : W64 := v &&& 0x00FF_FFFF_FFFF_FFFF
/-- A core endpoint of this device that the part does not have (09 R220). -/
def State.absentEndpoint (s : State) (v : W64) : Bool :=
  decide ((v.extractLsb' 18 14).toNat = s.devid) && decide (s.ncores ≤ (v.extractLsb' 0 12).toNat)
/-- DestCheck (09 R220). -/
def State.destCheck (s : State) (v : W64) : Option (BitVec 8 × W64) :=
  let ty := destType v
  if ty = 3 then some (cBadAddress, v)
  else if ty = 1 then
    if v.extractLsb' 56 2 ≠ 0 then some (cBadAddress, v)
    else if v.extractLsb' 0 3 ≠ 0 then some (cBadTarget, destCode v) else none
  else if v.extractLsb' 32 30 ≠ 0 then some (cBadAddress, v)
  else if ty = 0 ∧ s.absentEndpoint v = true then some (cUnitAbsent, v) else none

/-- The registers of a payload. -/
def State.payload (s : State) (p : BitVec 5) : List W64 := (List.range 6).map (fun i => s.rs (p + BitVec.ofNat 5 i))

/-- Where a destination value leads. -/
def State.destOf (s : State) (v : W64) : Dest :=
  match destType v with
  | 0 => if (v.extractLsb' 18 14).toNat = s.devid then .core (v.extractLsb' 0 12).toNat else .remote (v.extractLsb' 0 32)
  | 1 => .home s.cur.ctxid.toNat
  | _ => .queue (v.extractLsb' 0 32)

/-- A message leaves core `n`. An armed injection takes it out of its path (06 R163). -/
def State.sendMsg (s : State) (n : Nat) (p : Packet) : State :=
  let c := s.coreAt n
  if c.injVanish then s.modCore n (fun c => { c with injVanish := false })
  else match c.injHold with
    | some d =>
      let h : HeldMsg := { until_ := s.time + d, pkt := p }
      { s.modCore n (fun c => { c with injHold := none }) with heldMsgs := s.heldMsgs ++ [h] }
    | none => s.emitNow n p
/-- Emits a message's packet from the current core: it takes a credit, and leaves once no earlier word can fault (06 R141). -/
def State.emitMsg (s : State) (dest : Dest) (body : Body) : State :=
  let n := s.ev.core
  let p : Packet := { src := n, dest := dest, ctx := s.cur.ctxid.toNat, body := body, level := s.cur.pl, region := s.cur.region }
  let s := s.modCur (fun c => { c with credits := c.credits - 1 })
  if s.cur.uncleared then s.emit n p true else s.sendMsg n p

/-- An earlier access under the handle of an h field waits for its ticket from another device (08 R204). -/
def Core.unticketed (c : Core) (h : BitVec 4) : Bool :=
  match c.handleOf h with
  | some hd => (c.needsTicket hd.id).isSome
  | none => false
/-- The handle of the h field can be passed: its sequencer is of this device, or has answered. -/
def State.ticketWait (s : State) (h : BitVec 4) : Bool :=
  match s.cur.handleOf h with
  | some hd => s.foreign hd.id && s.cur.unticketed h
  | none => false

/-- Passes the handle of an h field with a message (08 R204): earlier requests first, then one holder more. -/
def State.passHandle (s : State) (h : BitVec 4) : State × W32 :=
  match s.cur.handleOf h with
  | none => (s, 0)
  | some hd => ((s.ticketed s.ev.core hd.id).holdHandle hd.id, hd.id)

/-- The message of a `send` or `qenq`. -/
def State.mkMsg (s : State) (kind : Nat) (amt : W64) (x : Nat) (p : BitVec 5) (f : BitVec 1) (hnd : W32) : Msg :=
  { kf := amt.extractLsb' 56 8 ++ f ++ 0#3 ++ BitVec.ofNat 4 kind, vint := s.cur.t.vint, weight := BitVec.ofNat 32 x,
    src := s.endpoint s.ev.core, hnd := hnd, payload := s.payload p, ctx := s.cur.ctxid.toNat }

/-- The checks that `send`, `qenq` and `spawn` share before any weight leaves: the future to transfer is marked. -/
def State.futCheck (s : State) (p : BitVec 5) (f : BitVec 1) : Option (BitVec 8 × W64) :=
  if f = 1 ∧ s.cur.t.marked p.toNat = false then some (cFuture, futureTval 0 (s.rs p)) else none

/-- `send` (09 R243). -/
def execSend (d a p : BitVec 5) (h : BitVec 4) (f : BitVec 1) (s : State) : Host.Outcome State Fault Refusal :=
  runWord (.send d a p h f) s (fun s => s.reclaimPoint (fun s =>
    let v := s.rs d
    match s.destCheck v with
    | some (code, tval) => .trap code tval
    | none =>
      match s.futCheck p f with
      | some (code, tval) => .trap code tval
      | none =>
        if s.cur.credits = 0 ∨ s.ticketWait h = true then .wait s.endQuantum
        else
          let amt := s.rs a
          s.take (amt.extractLsb' 0 32).toNat (fun x s =>
            let (s, hnd) := s.passHandle h
            let kind := if destType v = 0 then 2 else if destType v = 1 then 1 else 3
            let m := s.mkMsg kind amt x p f hnd
            let body : Body := if destType v = 1 then .start m (v.extractLsb' 58 4).toNat (destCode v) else .msg m none
            let s := s.emitMsg (s.destOf v) body
            .ok (if f = 1 then s.modCur (fun c => c.setMark p.toNat false) else s))))

/-- `qenq` (09 R244). -/
def execQenq (d a p : BitVec 5) (h : BitVec 4) (f : BitVec 1) (s : State) : Host.Outcome State Fault Refusal :=
  runWord (.qenq d a p h f) s (fun s =>
    match s.cur.txn with
    | .qenq => .wait s.endQuantum
    | .answered st =>
      let s := s.modCur (fun c => { c with txn := .none })
      let s := if f = 1 ∧ st = 0 then s.modCur (fun c => c.setMark p.toNat false) else s
      .ok (s.nowS d (BitVec.ofNat 64 st))
    | _ =>
      let v := s.rs d
      if destType v ≠ 2 then .trap cBadAddress v
      else match s.destCheck v with
      | some (code, tval) => .trap code tval
      | none =>
        if s.isRunQueue (v.extractLsb' 0 32) then .trap cQueue (v.extractLsb' 0 32 |>.setWidth 64)
        else match s.futCheck p f with
        | some (code, tval) => .trap code tval
        | none => s.clearedThen (fun s =>
          if s.cur.credits = 0 ∨ s.ticketWait h = true then .wait s.endQuantum
          else
            let amt := s.rs a
            s.take (amt.extractLsb' 0 32).toNat (fun x s =>
              let (s, hnd) := s.passHandle h
              let s := s.emitMsg (.queue (v.extractLsb' 0 32)) (.qask (s.mkMsg 3 amt x p f hnd) s.cur.t.run)
              .wait (s.modCur (fun c => { c with txn := .qenq })).endQuantum)))

/-- Reads `n` doublewords of a list, each with the checks of its own load (09 R245, 01 R22, 07 Table 7-1). -/
def State.loadList (s : State) (a : W64) : Nat → Except Res (List W64 × State)
  | 0 => .ok ([], s)
  | n + 1 =>
    match s.loadList a n with
    | .error r => .error r
    | .ok (l, s) =>
      match s.syncLoad (a + BitVec.ofNat 64 (8 * n)) 8 8 with
      | .stop r => .error r
      | .ok bs s => .ok (l ++ [BitVec.ofNat 64 (ofBytes bs)], s)

/-- A member of a multicast that can be sent to: a core endpoint or a slice queue without reserved bits (09 R245). -/
def memberOk (v : W64) : Bool := (decide (destType v = 0) || decide (destType v = 2)) && decide (v.extractLsb' 32 30 = 0)

/-- The list of a waiting `mcst`, which it has read once, or the read (09 R245). -/
def State.listOnce (s : State) (list : W64) (n : Nat) (k : List W64 → State → Res) : Res :=
  match s.cur.listed with
  | some ms => k ms s
  | none => s.readyThen list (8 * n) (fun s =>
    match s.loadList list n with
    | .error r => r
    | .ok (ms, s) => k ms (s.modCur (fun c => { c with listed := some ms })))

/-- `mcst` (09 R245). -/
def execMcst (d a p : BitVec 5) (h : BitVec 4) (f : BitVec 1) (s : State) : Host.Outcome State Fault Refusal :=
  runWord (.mcst d a p h f) s (fun s =>
    let v := s.rs d
    let list := destCode v
    let n := (v.extractLsb' 56 6).toNat + 1
    if v.extractLsb' 62 2 ≠ 0 then .trap cBadAddress v
    else s.listOnce list n (fun ms s =>
        match ms.find? (fun m => decide (destType m = 0) && s.absentEndpoint m) with
        | some m => .trap cUnitAbsent m
        | none =>
          if s.cur.credits = 0 ∨ s.ticketWait h = true then .wait s.endQuantum
          else
            let amt := s.rs a
            let each := if amt.extractLsb' 0 32 = 0 then 1 else (amt.extractLsb' 0 32).toNat
            s.take (n * each + 1) (fun _ s =>
              let id := s.cur.nextTag
              let failed : BitVec 64 := (ms.zip (List.range n)).foldl (fun (b : BitVec 64) e =>
                if memberOk e.1 then b else b ||| ((1 : BitVec 64) <<< e.2)) 0
              let rec_ : Mcst := { id := id, ctx := s.cur.ctxid.toNat, vint := s.cur.t.vint, unit := each, total := n,
                                   answered := popUpTo failed.toNat n, failed := failed }
              let s := s.modCur (fun c => { c with mcsts := c.mcsts ++ [rec_], nextTag := id + 1, credits := c.credits - 1, listed := none })
              .ok ((ms.zip (List.range n)).foldl (fun (s : State) e =>
                if memberOk e.1 then
                  let (s, hnd) := s.passHandle h
                  let m := s.mkMsg (if destType e.1 = 0 then 2 else 3) amt each p f hnd
                  s.emit s.ev.core { src := s.ev.core, dest := s.destOf e.1, ctx := s.cur.ctxid.toNat,
                                     body := .msg m (some (id * 64 + e.2)), level := s.cur.pl, region := s.cur.region }
                else s) s))))

/-! ## Taking a message (09 R246, R247) -/

/-- A message of an earlier vintage is discarded: counted, its handle and its reference given up (06 R162). -/
def State.discard (s : State) (m : Msg) : State :=
  let s := s.dropHnd m
  match s.ctx? m.ctx with
  | none => s
  | some _ =>
    let s := if m.fut then s.dropRef m.ctx (m.payload.getD 0 0).toNat else s
    s.modCtx m.ctx (fun x => { x with voidcnt := if x.saved then x.voidcnt else bump32 x.voidcnt 1 })
/-- The message is of its context's vintage. -/
def State.fresh (s : State) (m : Msg) : Bool :=
  match s.ctx? m.ctx with | some x => decide (m.vint = x.vint) | none => decide (m.ctx = 0)

/-- Discards the stale entries at the head of a core's inbox (06 R162). -/
def State.purgeInbox (s : State) (n : Nat) : Nat → State
  | 0 => s
  | fuel + 1 =>
    match (s.coreAt n).inbox with
    | m :: rest => if s.fresh m then s else State.purgeInbox ((s.modCore n (fun c => { c with inbox := rest })).discard m) n fuel
    | [] => s

/-- The spill queue of a core's context, if it is live (09 R224). -/
def State.spillOf (s : State) (c : Core) : Option (W32 × Queue) :=
  match s.ctxOf c with
  | none => none
  | some x => (s.queueOf x.rcb.spillq).map (fun q => (x.rcb.spillq, q))

/-- Puts a taken message into the registers (09 R246). -/
def State.deliverMsg (s : State) (d : BitVec 5) (h : BitVec 4) (m : Msg) : State :=
  let s := (m.payload.zip (List.range 6)).foldl (fun (s : State) e => s.nowS (d + BitVec.ofNat 5 e.2) e.1) s
  let s := s.nowS (d + 6) m.head
  let s := if m.fut then s.modCur (fun c => c.setMark d.toNat true) else s
  let s := s.modCur (fun c => { c with txn := .none, acquired := c.acquired || decide (m.kind = 4) || decide (m.kind = 5) })
  if m.hnd = 0 then s
  else if h = 0 then s.releaseHandle m.hnd
  else s.setH h (some { id := m.hnd, scope := s.scopeOf m.hnd })

/-- An entry with a reference goes only to a register that a mark can cover (12 R266). -/
def entryFits (d : BitVec 5) (m : Msg) : Bool := !m.fut || (decide (4 ≤ d.toNat) && decide (d.toNat ≤ 19))
def entryTrap (m : Msg) : Res := .trap cFuture (futureTval 0 (m.payload.getD 0 0))

/-- `ibpop` (09 R246). -/
def execIbpop (d : BitVec 5) (h : BitVec 4) (s : State) : Host.Outcome State Fault Refusal :=
  runWord (.ibpop d h) s (fun s => s.clearedThen (fun s =>
    let n := s.ev.core
    let s := s.purgeInbox n s.cur.inbox.length
    match s.cur.inbox with
    | m :: rest =>
      if entryFits d m then
        let s := s.modCur (fun c => { c with inbox := rest, t := { c.t with w := c.t.w + m.weight } })
        .ok (s.deliverMsg d h m)
      else entryTrap m
    | [] =>
      let asleep (s : State) : Res := .wait (s.modCur (fun c => { c with txn := .asleep 0 })).endQuantum
      match s.spillOf s.cur with
      | some (qh, q) =>
        if q.count = 0 then asleep s
        else s.areaThen [(q.entry q.head, 64)] (fun s =>
          let m := s.ringHead q
          if entryFits d m then .ok ((s.ringPop qh q).deliverMsg d h m) else entryTrap m)
      | none => asleep s))

/-- `ibpeek` (09 R247): it passes over what `ibpop` would discard, and removes nothing. -/
def execIbpeek (d : BitVec 5) (s : State) : Host.Outcome State Fault Refusal :=
  runWord (.ibpeek d) s (fun s => s.clearedThen (fun s =>
    match s.cur.inbox.find? s.fresh with
    | some m => .ok (s.nowS d m.head)
    | none =>
      match s.spillOf s.cur with
      | some (_, q) =>
        if q.count = 0 then .ok (s.nowS d 0) else s.areaThen [(q.entry q.head, 64)] (fun s => .ok (s.nowS d (s.ringHead q).head))
      | none => .ok (s.nowS d 0)))

/-- The queue that a word may act on, or the trap QUEUE (09 R246; 12 R278). -/
def State.usableQueue (s : State) (h : W32) : Option Queue :=
  match s.queueOf h with
  | some q => if s.mayUse s.cur q && !s.isRunQueue h then some q else none
  | none => none
def queueTrap (h : W32) : Res := .trap cQueue (h.setWidth 64)

/-- `qdeq` (09 R246, R235). -/
def execQdeq (d a : BitVec 5) (h : BitVec 4) (s : State) : Host.Outcome State Fault Refusal :=
  runWord (.qdeq d a h) s (fun s => s.clearedThen (fun s =>
    let qh := (s.rs a).extractLsb' 0 32
    match s.cur.txn with
    | .item m => if entryFits d m then .ok (s.deliverMsg d h m) else entryTrap m
    | .freed => queueTrap qh
    | .asleep _ => .wait s.endQuantum
    | _ =>
      match s.usableQueue qh with
      | none => queueTrap qh
      | some q =>
        if q.count = 0 then
          let s := s.setQueue qh { q with sleepers := q.sleepers ++ [s.ev.core] }
          .wait (s.modCur (fun c => { c with txn := .asleep qh })).endQuantum
        else s.areaThen [(q.entry q.head, 64)] (fun s =>
          let m := s.ringHead q
          if entryFits d m then .ok ((s.ringPop qh q).deliverMsg d h m) else entryTrap m)))

/-- `qtry` (09 R246). -/
def execQtry (d a : BitVec 5) (h : BitVec 4) (s : State) : Host.Outcome State Fault Refusal :=
  runWord (.qtry d a h) s (fun s => s.clearedThen (fun s =>
    let qh := (s.rs a).extractLsb' 0 32
    match s.usableQueue qh with
    | none => queueTrap qh
    | some q =>
      if q.count = 0 then
        .ok (((List.range 7).foldl (fun (s : State) i => s.nowS (d + BitVec.ofNat 5 i) 0) s).nowP7 false)
      else s.areaThen [(q.entry q.head, 64)] (fun s =>
        let m := s.ringHead q
        if entryFits d m then .ok (((s.ringPop qh q).deliverMsg d h m).nowP7 true) else entryTrap m)))

/-! ## Ending (09 R248) -/

/-- A reference, or a handle, of an ending run is given up: at the quantum end where it ends inside a quantum (12 R284). -/
def State.endRef (s : State) (n f : Nat) : State :=
  let c := s.coreAt n
  if s.isDet c && !s.commits c then s.emitNow n { src := n, dest := .core n, ctx := c.ctxid.toNat, body := .fdrop f }
  else s.dropRef c.ctxid.toNat f
def State.endHandle (s : State) (n : Nat) (id : W32) : State :=
  let c := s.coreAt n
  if s.isDet c && !s.commits c then s.emitNow n { src := n, dest := .core n, ctx := c.ctxid.toNat, body := .unhold id }
  else s.releaseHandle id

/-- The end of core `n`'s run. Only lane 0 of a cordon ends the frame and fails its unresolved future (12 R264, R287). -/
def State.endRun (s : State) (n : Nat) (sum : Bool) : State :=
  let c := s.coreAt n
  let ctx := c.ctxid.toNat
  let t := c.t.finish
  let f := t.frame.toNat
  let s := if sum then s.sumFlags n else s
  let s := ((markedRegs t.fmask).map (fun r => (t.file .s r).toNat)).foldl (fun (s : State) f => s.endRef n f) s
  let s := (t.h.toList.drop 1).foldl (fun (s : State) h => match h with | some h => s.endHandle n h.id | none => s) s
  let s := s.emitReturn n ctx t.vint t.w.toNat
  let s := s.modCore n (fun c => { c.goIdle with
    t := { t with w := 0, fmask := 0, h := Vector.replicate 16 none, frame := 0 } })
  if f = 0 ∨ c.lane ≠ 0 then s
  else
    let s := match s.owes f with | some fu => s.resolve ctx fu fsFailed 0 | none => s
    s.endFrame ctx f

/-- `end` (09 R248): a core without a context is not made idle (06 R131), but its bindings are freed (13 R328). DESIGN CHOICE (log entry
56): there it gives up no handle and no marked reference, returns no weight and adds no flags to FLAGSUM.ACC. -/
def execEnd (s : State) : Host.Outcome State Fault Refusal :=
  runWord .endH s (fun s => s.reclaimPoint (fun s => s.replayThen (fun s =>
    if s.cur.uncleared ∨ 0 < s.cur.unacked ∨ s.cur.dividing ∨ (s.isDet s.cur && !s.cur.qgo) = true then .wait s.endQuantum
    else if s.cur.ctxid = 0 then
      .ok (s.modCur (fun c => { c with ready := max c.ready c.t.divDue, t := { c.t.finish with nom := c.t.nom, streams := Vector.replicate 4 none } }))
    else s.areaPark (s.endAreas s.ev.core) (fun s => .ok ((s.endRun s.ev.core true).leaveCordon s.ev.core).endQuantum))))

/-! ## Weight words (09 R249-R251) -/

/-- `wdraw` (09 R249). -/
def execWdraw (d a : BitVec 5) (s : State) : Host.Outcome State Fault Refusal :=
  runWord (.wdraw d a) s (fun s => s.clearedThen (fun s =>
    let m := max 1 ((s.rs a).extractLsb' 0 32).toNat
    match s.cur.txn with
    | .draw _ => .wait s.endQuantum
    | txn =>
      let gained := match txn with | .drawn g => g | _ => 0
      if m ≤ gained then .ok ((s.modCur (fun c => { c with txn := .none })).nowS d (BitVec.ofNat 64 gained))
      else if s.drawLimit s.cur ≤ s.cur.t.draws then .trap cWeightStarved (BitVec.ofNat 64 (m - gained))
      else s.drawMore))

/-- `wret` (09 R250). -/
def execWret (d a : BitVec 5) (s : State) : Host.Outcome State Fault Refusal :=
  runWord (.wret d a) s (fun s =>
    let w := s.cur.t.w.toNat
    let q := ((s.rs a).extractLsb' 0 32).toNat
    let r := min (if q = 0 then w / 2 else q) (w - 1)
    let s := s.modCur (fun c => { c with t := { c.t with w := BitVec.ofNat 32 (w - r) } })
    let s := if r = 0 then s else s.emitReturn s.ev.core s.cur.ctxid.toNat s.cur.t.vint r
    .ok (s.nowS d (BitVec.ofNat 64 r)))

/-- `waudit` (09 R251). -/
def execWaudit (d a : BitVec 5) (s : State) : Host.Outcome State Fault Refusal :=
  runWord (.waudit d a) s (fun s => s.gateThen (fun s =>
    let id := if s.cur.pl = 0 then s.cur.ctxid.toNat else ((s.rs a).extractLsb' 0 32).toNat
    match s.ctx? id with
    | none => .ok ((s.nowS d 2).nowP7 false)
    | some x =>
      if s.cur.pl ≠ 0 ∧ s.cur.authority x = false then .ok ((s.nowS d 3).nowP7 false)
      else
        let acc := s.audit id
        .ok ((s.nowS d (BitVec.ofNat 64 (acc % 2 ^ 32 * 2 ^ 32 + (x.total - acc) % 2 ^ 32))).nowP7 true)))

/-! ## Queues (09 R252-R254) -/

/-- The rights of a ring (09 R252): the first page that lacks read and write, if any. -/
def State.ringDenied (s : State) (a : W64) (n : Nat) : Option W64 :=
  if s.cur.pl ≠ 0 then none
  else ((List.range (n / 8192 + 2)).map (fun i => if i = 0 then a else (a / 8192 + BitVec.ofNat 64 i) * 8192)).find? (fun p =>
    decide (p.toNat < a.toNat + n) && !s.permits s.cur p (rRead ||| rWrite))

/-- `qnew` (09 R252). -/
def execQnew (d a k : BitVec 5) (s : State) : Host.Outcome State Fault Refusal :=
  runWord (.qnew d a k) s (fun s => s.clearedThen (fun s =>
    let base := s.rs a
    let n := 64 * 2 ^ k.toNat
    if s.window base ≠ .paged ∨ s.window (base + BitVec.ofNat 64 (n - 1)) ≠ .paged then .trap cBadAddress base
    else if base.toNat % 64 ≠ 0 then .trap cAlign base
    else match s.ringDenied base n with
    | some p => .trap cProtection p
    | none =>
      let slice := sgOf s.ev.core
      match (List.range 1024).find? (fun i => !(FMap.getD s.queues (slice * 1024 + i) Queue.reset).live) with
      | none => .ok ((s.nowS d 6).nowP7 false)
      | some i =>
        let g := (FMap.getD s.queues (slice * 1024 + i) Queue.reset).gen
        let h : W32 := BitVec.ofNat 20 (slice * 1024 + i) ++ g
        let q : Queue := { gen := g, live := true, base := base, k := k.toNat, head := 0, tail := 0, owner := s.cur.ctxid,
                           sleepers := [], watch := [] }
        .ok (((s.setQueue h q).nowS d (0x8000_0000_0000_0000 ||| h.setWidth 64)).nowP7 true)))

/-- QREADY to a watching core (09 R254, Table 9-3): the watch's unit travels with it. -/
def State.qready (s : State) (h : W32) (n : Nat) (tag : BitVec 8) (status count : Nat) : State :=
  let c := s.coreAt n
  match c.watch with
  | none => s
  | some (_, _, vint) =>
    let m := hwMsg 8 tag vint 1 h [BitVec.ofNat 64 status, 0x8000_0000_0000_0000 ||| h.setWidth 64, BitVec.ofNat 64 count, 0, 0, 0]
      c.ctxid.toNat
    (s.modCore n (fun c => { c with watch := none })).emitNow n
      { src := 8192 + queueKey h / 1024, dest := .core n, ctx := c.ctxid.toNat, body := .msg m none }

/-- Every watch on a queue fires (09 R253, R254). -/
def State.fireWatches (s : State) (h : W32) (ws : List (Nat × BitVec 8)) (status count : Nat) : State :=
  ws.foldl (fun (s : State) e => s.qready h e.1 e.2 status count) s

/-- Frees a queue (09 R253): its entries go, its sleepers take QUEUE, its watches fire. -/
def State.freeQueue (s : State) (h : W32) (q : Queue) : State :=
  let msgs := (List.range q.count).map (fun i => Msg.ofBytes ((s.vRead (q.entry (q.head + i)) 64).getD []) q.owner.toNat)
  let s := msgs.foldl (fun (s : State) m =>
    let s := s.dropHnd m
    if m.fut && (s.ctx? m.ctx).isSome then s.dropRef m.ctx (m.payload.getD 0 0).toNat else s) s
  let s := q.sleepers.foldl (fun (s : State) n => s.modCore n (fun c => { c with txn := .freed })) s
  let s := s.setQueue h { Queue.reset with gen := if q.gen = 4095 then 1 else q.gen + 1 }
  s.fireWatches h q.watch 2 0

/-- `qfree` (09 R253). -/
def execQfree (d a : BitVec 5) (s : State) : Host.Outcome State Fault Refusal :=
  runWord (.qfree d a) s (fun s => s.clearedThen (fun s =>
    let h := (s.rs a).extractLsb' 0 32
    if s.isRunQueue h then queueTrap h
    else match s.queueOf h with
    | none => .ok (s.nowS d 2)
    | some q =>
      let auth : Bool := decide (s.cur.ctxid = q.owner) || (decide (s.cur.pl ≠ 0) && s.mayUse s.cur q)
      if auth then s.areaPark ((List.range q.count).map (fun i => (q.entry (q.head + i), 64))) (fun s => .ok ((s.freeQueue h q).nowS d (BitVec.ofNat 64 (q.count * 2 ^ 32)))) else .ok (s.nowS d 3)))

/-- `qwatch` (09 R254). -/
def execQwatch (d a : BitVec 5) (m : BitVec 1) (t : BitVec 8) (s : State) : Host.Outcome State Fault Refusal :=
  runWord (.qwatch d a m t) s (fun s => s.clearedThen (fun s =>
    let n := s.ev.core
    let h := (s.rs a).extractLsb' 0 32
    match s.usableQueue h with
    | none => queueTrap h
    | some q =>
      if m = 0 then
        if s.cur.watch.isSome then .ok (s.nowS d 5)
        else s.take 1 (fun _ s =>
          let s := (s.modCur (fun c => { c with watch := some (h, t, c.t.vint) })).nowS d 0
          if q.count = 0 then .ok (s.setQueue h { q with watch := q.watch ++ [(n, t)] })
          else .ok (s.qready h n t 0 q.count))
      else match s.cur.watch with
        | none => .ok (s.nowS d 5)
        | some (wh, tag, _) =>
          let s := match s.queueOf wh with
            | some wq => s.setQueue wh { wq with watch := wq.watch.filter (fun e => decide (e.1 ≠ n)) }
            | none => s
          .ok ((s.qready wh n tag 8 (((s.queueOf wh).map Queue.count).getD 0)).nowS d 0)))

/-! ## Barriers (09 R255) -/

/-- The participants of a barrier, and its mask without ignored bits. -/
def State.participants (s : State) (level : Nat) (mask : W64) : List Nat × Nat :=
  let n := s.ev.core
  if level = 0 then (s.cordonOf n, 0)
  else
    let w := if level = 1 then 16 else 64
    ((List.range w).filterMap (fun i => if mask.getLsbD i then some (n / w * w + i) else none), mask.toNat % 2 ^ w)

/-- A core waits on a barrier of this level and context. -/
def Core.barrier? (c : Core) (level : Nat) (ctx : W32) : Option (Bool × Nat) :=
  if c.ctxid = ctx then (match c.txn with | .barrier r l m => if l = level then some (r, m) else none | _ => none) else none

/-- A barrier word, once held words of the core are performed (09 R238, 13 R332). In a deterministic region it arrives at the
quantum end (12 R284). -/
def barrierWord (i : Instr) (rack : Bool) (d a : BitVec 5) (v : BitVec 2) (s : State) : Host.Outcome State Fault Refusal :=
  runWord i s (fun s =>
    let n := s.ev.core
    let level := v.toNat
    let ps := (s.participants level (s.rs a)).1
    let mask := (s.participants level (s.rs a)).2
    let ctx := s.cur.ctxid
    let pass (s : State) : Res :=
      .ok ((s.modCur (fun c => { c with txn := .none })).nowS d (if rack then bit64 s.cur.live else 0))
    if s.cur.txn = .barDone then pass s
    else s.replayThen (fun s => s.gateThen (fun s =>
      let arrived : Bool := match s.cur.txn with | .barrier _ _ _ => true | _ => false
      let other (m : Nat) : Bool := match (s.coreAt m).barrier? level ctx with
        | some e => decide (e ≠ (rack, mask)) | none => false
      if !arrived && (!ps.contains n || ps.any (fun m => decide (m ≠ n) && other m)) then
        .ok (s.nowS d 0x8000_0000_0000_0000)
      else
        let s := s.modCur (fun c => { c with txn := .barrier rack level mask })
        if ps.all (fun m => decide ((s.coreAt m).barrier? level ctx = some (rack, mask)) && (s.coreAt m).replay.isEmpty
            && (s.coreAt m).mem.all (fun x => x.performed || x.isJoin)) then
          let s := ps.foldl (fun (s : State) m => s.modCore m (fun c =>
            { c with txn := .barDone, live := if rack then !c.live else c.live })) s
          pass s
        else .wait s.endQuantum)))

def execRackb (d a : BitVec 5) (v : BitVec 2) (s : State) := barrierWord (.rackb d a v) true d a v s
def execBar (d a : BitVec 5) (v : BitVec 2) (s : State) := barrierWord (.bar d a v) false d a v s

end Sys2Proof.Machine
end

