-- ==== Sys2Proof/Machine/Futures.lean ====
section
/-!
DEFINITION. The future, continuation and cordon words (12 R290-R297).
-/
namespace Sys2Proof.Machine

/-- The run has a frame; where it has none it takes the lowest free one, for its whole cordon (12 R269, R286). -/
def State.needFrame (s : State) : Option State :=
  if s.cur.t.frame ≠ 0 then some s
  else match s.takeFrame s.cur.ctxid.toNat with
    | none => none
    | some (f, s) => some ((s.cordonOf s.ev.core).foldl (fun s m =>
        s.modCore m (fun c => { c with t := { c.t with frame := BitVec.ofNat 64 f } })) s)
/-- The frame, if there is one to take. -/
def State.tryFrame (s : State) : State := s.needFrame.getD s
/-- The run's frame control area is out of range (12 R270). -/
def State.frameBad (s : State) : Option W64 :=
  match s.ctxOf s.cur with
  | some x => if s.cur.t.frame ≠ 0 ∧ s.frameOk x s.cur.t.frame.toNat = false then some s.cur.t.frame else none
  | none => none
/-- The run's frame can be reached and is in range. -/
def State.frameThen (s : State) (k : State → Res) : Res :=
  s.areaThen (if s.cur.t.frame = 0 then [] else [frameArea s.cur.t.frame.toNat]) (fun s =>
    match s.frameBad with
    | some a => .trap cFuture (futureTval 3 a)
    | none => k s)
/-- A word uses areas, and the control areas of other frames, through an agent: they can be reached (07 R181), and each frame is in
range, or the word takes FUTURE with the first that is not (12 R270). -/
def State.usesThen (s : State) (areas : List (Nat × Nat)) (frames : List Nat) (k : State → Res) : Res :=
  s.areaThen (areas ++ frames.map frameArea) (fun s =>
    match s.ctxOf s.cur with
    | some x => (match frames.find? (fun f => !s.frameOk x f) with
      | some f => .trap cFuture (futureTval 3 (BitVec.ofNat 64 f))
      | none => k s)
    | none => k s)
/-- The context of the current core, where a word uses it. -/
def State.withCtx {α : Type} (s : State) (f : Ctx → List α) : List α := ((s.ctxOf s.cur).map f).getD []
/-- The areas and frames that resolving a future uses. -/
def State.wakeThen (s : State) (fu : Nat) (k : State → Res) : Res :=
  s.usesThen [(fu, 32)] [] (fun s =>
    let ws := s.withCtx (fun x => s.waiters x fu)
    s.usesThen [] ws (fun s => s.usesThen (s.withCtx (fun x => ws.flatMap (fun g => s.queueEntry x (s.framePrio g))))
      (s.withCtx (fun x => ws.flatMap (fun g => s.queueFrames x (s.framePrio g)))) k))
/-- The areas and frames that a continuation write with a mask uses beside the run's own frame: a free one, the cells of the
references that it gives up, and where the record goes. -/
def State.restThen (s : State) (mask : Nat) (park : ParkAt) (k : State → Res) : Res :=
  let t := s.cur.t.finish
  let free := (if s.cur.t.frame = 0 ∨ s.cur.lane ≠ 0 then s.withCtx Ctx.freeArea else []) ++ t.refAreas (t.lostRegs mask)
  match park with
  | .queue q => s.usesThen (free ++ s.withCtx (fun x => s.queueEntry x q)) (s.withCtx (fun x => s.queueFrames x q)) k
  | .future fu => s.usesThen ((fu, 32) :: free) (s.withCtx (fun x => s.waiters x fu)) k
  | .sync => s.usesThen free [] k
/-- A run without a frame is about to take one. -/
def State.freeThen (s : State) (k : State → Res) : Res :=
  s.usesThen (if s.cur.t.frame = 0 then s.withCtx Ctx.freeArea else []) [] k
/-- The cells of the heap up to the one that is taken. -/
def State.heapArea (s : State) (x : Ctx) : Nat × Nat :=
  (x.rcb.fheap.toNat, match s.freeCell x with | some f => f + 32 - x.rcb.fheap.toNat | none => 32 * x.rcb.fheapn.toNat)

/-- The current task's own future, 0 for none. -/
def State.ownFut (s : State) : Nat := if s.cur.t.frame = 0 then 0 else s.vNum (frFut s.cur.t.frame.toNat) 8
def futTrap (reason : BitVec 8) (x : W64) : Res := .trap cFuture (futureTval reason x)
/-- The reference register is marked, or holds the task's own future (12 R292, R293). -/
def State.mayName (s : State) (a : BitVec 5) : Bool :=
  s.cur.t.marked a.toNat || (decide (s.ownFut ≠ 0) && decide (refOf (s.rs a) = s.ownFut))

/-- One reference is given up: at once, or once no earlier word can fault (06 R141), or at the quantum end (12 R284). -/
def State.dropNow (s : State) (f : Nat) : State :=
  let n := s.ev.core
  let ctx := s.cur.ctxid.toNat
  if s.isDet s.cur || s.cur.uncleared then s.emit n { src := n, dest := .core n, ctx := ctx, body := .fdrop f } else s.dropRef ctx f
/-- One reference more. -/
def State.addRef (s : State) (f : Nat) : State := s.vSet (f + 4) 4 (s.futCount f + 1)

/-- `spawn` (12 R290). -/
def execSpawn (d a p : BitVec 5) (h : BitVec 4) (f : BitVec 1) (s : State) : Host.Outcome State Fault Refusal :=
  runWord (.spawn d a p h f) s (fun s => s.reclaimPoint (fun s =>
    let v := s.rs d
    if destType v ≠ 1 then .trap cBadAddress v
    else match s.destCheck v with
    | some (code, tval) => .trap code tval
    | none =>
      match s.futCheck p f with
      | some (code, tval) => .trap code tval
      | none => s.gateThen (fun s => s.frameThen (fun s =>
        let prio := (v.extractLsb' 58 4).toNat
        if s.ticketWait h then .wait s.endQuantum
        else s.usesThen (s.withCtx (fun x => s.heapArea x :: ((s.freeFrames x).take 2).map frameArea ++ s.queueEntry x prio))
            (s.withCtx (fun x => s.queueFrames x prio)) (fun s =>
        match s.needFrame with
        | none => .ok (s.nowP7 false).endQuantum
        | some s =>
          match s.ctxOf s.cur with
          | none => .ok (s.nowP7 false)
          | some x =>
            let ctx := s.cur.ctxid.toNat
            -- the cell and the frame are there before any unit is taken: nothing changes otherwise
            match s.freeCell x, s.takeFrame ctx with
            | some cell, some _ =>
              s.take ((s.rs a).extractLsb' 0 32).toNat (fun w s =>
                match s.takeFrame ctx with
                | none => .ok ((s.modCur (fun c => { c with t := { c.t with w := c.t.w + BitVec.ofNat 32 w } })).nowP7 false)
                | some (fr, s) =>
                  let own := s.cur.t.frame.toNat
                  let (s, hnd) := s.passHandle h
                  let sc := ((s.cur.handleOf h).map (·.scope)).getD .core
                  let s := s.vSet cell 1 fsPending
                  let s := ((s.vSet (cell + 1) 1 0).vSet (cell + 2) 2 (s.homeSlice cell)).vSet (cell + 4) 4 1
                  let s := ((s.vSet (cell + 8) 8 0).vSet (cell + 0x10) 8 0).vSet (cell + 0x18) 8 fr
                  let s10 : W64 := (s.endpoint s.ev.core) ++ s.cur.t.vint ++ (0#8 ++ f ++ 1#7 : BitVec 16)
                  let mask := 0x7FC + (if hnd = 0 then 0 else 2 ^ 53)
                  let slots := [fr + 0xC0, cell] ++ (s.payload p).map BitVec.toNat ++ [s10.toNat]
                    ++ (if hnd = 0 then [] else [({ id := hnd, scope := sc : Handle }).slot.toNat])
                  let s := s.vSet fr 8 ((destCode v).toNat + prio * 2 ^ 56)
                  let s := s.vSet (fr + 8) 4 (x.frameIndex fr)
                  let s := ((s.vSet (fr + 0xC) 4 w).vSet (frJoin fr) 4 0).vSet (fr + 0x14) 2 s.cur.t.vint.toNat
                  let s := (s.vSet (fr + 0x16) 2 f.toNat).vSet (fr + 0x18) 8 mask
                  let s := (s.vPut (fr + 0x20) (slots.map (toBytes 8)).flatten).getD s
                  let s := (s.vSet (frParent fr) 8 own).vSet (frFut fr) 8 cell
                  let s := s.vSet (frJoin own) 4 (s.vNum (frJoin own) 4 + 1)
                  let s := (s.homeAdd ctx s.cur.t.vint w).enqueue ctx prio fr
                  let s := if f = 1 then s.modCur (fun c => c.setMark p.toNat false) else s
                  let s := s.modCur (fun c => c.setMark d.toNat true)
                  .ok (((s.nowS d (BitVec.ofNat 64 cell)).nowP7 true).endQuantum))
            | _, _ => .ok ((s.nowP7 false).endQuantum))))))

/-- In a cordon at user level a word waits where it would write a continuation (12 R286). -/
def State.slaved (s : State) : Bool := decide (1 < s.cur.cordsz.toNat) && decide (s.cur.pl = 0)

/-- A continuation write waits for its turn in a deterministic region, for every access, and for the divider (12 R271, R284,
R332; 04 R84). -/
def State.parkThen (s : State) (k : State → Res) : Res :=
  s.replayThen (fun s => s.gateThen (fun s => s.quietThen (fun s =>
    if s.cur.dividing then .wait s else s.frameThen k)))

/-- `fget` (12 R291). At supervisor level too the record resumes at the `fget`. A reference whose cell is free or RECLAIMED
takes FUTURE with reason 0 (log entry 52). -/
def execFget (d a : BitVec 5) (x : BitVec 1) (s : State) : Host.Outcome State Fault Refusal :=
  runWord (.fget d a x) s (fun s => s.reclaimPoint (fun s =>
    let ref := refOf (s.rs a)
    if s.cur.t.marked a.toNat = false ∨ (s.ownFut ≠ 0 ∧ ref = s.ownFut) then futTrap 0 (s.rs a)
    else s.clearedThen (fun s => s.freeThen (fun s => s.tryFrame.frameThen (fun s => s.usesThen [(ref, 32)] [] (fun s =>
      let st := s.futState ref
      if st = fsReady ∨ st = fsFailed then
        let val : W64 := BitVec.ofNat 64 (s.vNum (ref + 8) 8)
        let s := if x = 1 then (s.modCur (fun c => c.setMark a.toNat false)).dropNow ref else s
        .ok ((s.nowS d val).nowP7 (decide (st = fsReady)))
      else if st ≠ fsPending then futTrap 0 (s.rs a)
      else if s.slaved then .wait s.endQuantum
      else s.parkThen (fun s => s.restThen 0xFFFE (.future ref) (fun s =>
        let n := s.ev.core
        match s.contWrite n s.cur.iss.pc 0xFFFE false s.cur.t.prio.toNat (.future ref) with
        | .ok s => .ok (s.leaveCordon n).endQuantum
        | r => r))))))))

/-- The word names a future by a marked register or as the task's own, in a frame in range (12 R270, R292, R293). -/
def State.nameThen (s : State) (a : BitVec 5) (k : State → Res) : Res :=
  if s.cur.t.marked a.toNat = false ∧ s.cur.t.frame = 0 then futTrap 0 (s.rs a)
  else s.frameThen (fun s => if s.mayName a = false then futTrap 0 (s.rs a) else k s)

/-- `fset` (12 R292). -/
def execFset (d a b : BitVec 5) (s : State) : Host.Outcome State Fault Refusal :=
  runWord (.fset d a b) s (fun s =>
    let ref := refOf (s.rs a)
    let n := s.ev.core
    let ctx := s.cur.ctxid.toNat
    s.nameThen a (fun s => if s.isDet s.cur then
      if s.cur.mem.all (fun e => e.held || e.isJoin) && !s.cur.uncleared then
        let tag := s.cur.nextTag
        let s := s.modCur (fun c => { c.expect .s d.toNat tag with nextTag := tag + 1 })
        .ok (s.emit n { src := n, dest := .core n, ctx := ctx, body := .fset ref (s.rs b) tag })
      else .wait s
    else s.quietThen (fun s => s.wakeThen ref (fun s =>
      if s.futState ref = fsPending then .ok ((s.resolve ctx ref fsReady (s.rs b).toNat).nowS d 0)
      else .ok (s.nowS d 4)))))

/-- `fref` (12 R293). -/
def execFref (d a : BitVec 5) (m : BitVec 2) (s : State) : Host.Outcome State Fault Refusal :=
  runWord (.fref d a m) s (fun s => s.reclaimPoint (fun s =>
    let v := s.rs a
    let ref := refOf v
    let n := s.ev.core
    if m = 2 then
      match s.ctxOf s.cur with
      | none => futTrap 0 v
      | some x =>
        if x.isCell ref = false then futTrap 0 v
        else s.usesThen [(ref, 32)] [] (fun s =>
          if s.futState ref ≠ 0 then .ok ((s.nowS d v).modCur (fun c => c.setMark d.toNat true))
          else futTrap 0 v)
    else if s.cur.t.marked a.toNat = false then futTrap 0 v
    else s.clearedThen (fun s => s.usesThen [(ref, 32)] [] (fun s =>
      if s.futCount ref = 0xFFFF_FFFF then futTrap 4 v
      else
        let s := if s.isDet s.cur then s.emit n { src := n, dest := .core n, ctx := s.cur.ctxid.toNat, body := .fref ref }
          else s.addRef ref
        let s := s.nowS d v
        .ok (if m = 0 then s.modCur (fun c => c.setMark d.toNat true) else s)))))

/-- `fdrop` (12 R293): it waits for nothing; the reference is given up once no earlier word can fault (06 R141). -/
def execFdrop (a : BitVec 5) (s : State) : Host.Outcome State Fault Refusal :=
  runWord (.fdrop a) s (fun s => s.reclaimPoint (fun s =>
    let v := s.rs a
    if s.cur.t.marked a.toNat = false then futTrap 0 v
    else s.usesThen [(refOf v, 32)] [] (fun s =>
      .ok ((s.modCur (fun c => c.setMark a.toNat false)).dropNow (refOf v)))))

/-- `fpoll` (12 R293). -/
def execFpoll (d a : BitVec 5) (s : State) : Host.Outcome State Fault Refusal :=
  runWord (.fpoll d a) s (fun s =>
    let v := s.rs a
    s.nameThen a (fun s => s.usesThen [(refOf v, 32)] [] (fun s =>
      let st := s.futState (refOf v)
      if st = fsReady then .ok ((s.nowS d (BitVec.ofNat 64 (s.vNum (refOf v + 8) 8))).nowP7 true)
      else .ok ((s.nowS d (BitVec.ofNat 64 st)).nowP7 false))))

/-- The continuation write of `sync`, `suspend` and `yield` by the current core (12 R294). -/
def State.leave (s : State) (own : W64) (mask : Nat) (ph : Bool) (prio : Nat) (park : ParkAt) : Res :=
  s.parkThen (fun s => s.restThen mask park (fun s =>
    let n := s.ev.core
    let pc := if s.cur.pl = 0 then own else s.cur.tpc
    match s.contWrite n pc mask ph prio park with
    | .ok s => .ok (s.leaveCordon n).endQuantum
    | r => r))

/-- `sync` (12 R294). A follower in a trap routine has no frame of its own, so its JOIN is 0: the children of its spawns count in
the leader's frame (12 R286, log entry 54). -/
def execSync (m : BitVec 19) (x : BitVec 1) (s : State) : Host.Outcome State Fault Refusal :=
  runWord (.sync m x) s (fun s => s.reclaimPoint (fun s => s.clearedThen (fun s => s.freeThen (fun s => s.tryFrame.frameThen (fun s =>
    let f := s.cur.t.frame
    if f = 0 ∨ s.vNum (frJoin f.toNat) 4 = 0 ∨ (s.cur.lane ≠ 0 ∧ s.cur.pl ≠ 0) then .ok s
    else if s.slaved then .wait s.endQuantum
    else s.leave s.cur.iss.pc (2 * m.toNat) (decide (x = 1)) s.cur.t.prio.toNat .sync)))))

/-- `suspend` (12 R294). -/
def execSuspend (q : BitVec 4) (m : BitVec 15) (x : BitVec 1) (s : State) : Host.Outcome State Fault Refusal :=
  runWord (.suspend q m x) s (fun s => s.reclaimPoint (fun s => s.clearedThen (fun s =>
    s.leave s.cur.iss.next (2 * m.toNat) (decide (x = 1)) q.toNat (.queue q.toNat))))

/-- `yield` (12 R294, R287). -/
def execYield (m : BitVec 19) (x : BitVec 1) (s : State) : Host.Outcome State Fault Refusal :=
  runWord (.yield m x) s (fun s => s.reclaimPoint (fun s => s.clearedThen (fun s =>
    s.leave s.cur.iss.next (2 * m.toNat) (decide (x = 1)) s.cur.t.prio.toNat (.queue s.cur.t.prio.toNat))))

/-! ## Cordons (12 R285, R287, R296, R297) -/

/-- The members that `cordon` can add: idle cores of the context in the leader's group (12 R285). -/
def State.followers (s : State) (n : Nat) (k : Nat) : List Nat :=
  (((List.range 16).map (fun i => n / 16 * 16 + i)).filter (fun m => decide (m ≠ n) && s.idleIn m s.cur.ctxid
    && (match s.ctxOf s.cur with | some x => x.cores.contains m | none => false))).take k

/-- A follower's copy of its leader (12 R285). DESIGN CHOICE (log entry 56): the rule does not name the live generator descriptors, which
are copied as well. -/
def followerOf (c lead : Core) (n run : Nat) : Core :=
  { c with
    t := { Thread.reset with
      s := lead.t.finish.s, p := lead.t.finish.p, rmode := lead.t.rmode, vtt := lead.t.vtt, scaleb := lead.t.scaleb,
      w := 1, run := run, prio := lead.t.prio, frame := lead.t.frame, vint := lead.t.vint, gens := lead.t.gens, pc := lead.t.pc,
      nom := lead.t.nom }
    pl := 0, tvec := lead.tvec, run := .running, slot := .done, txn := .none, leader := some n,
    marked := false, preempt := false }

/-- Take(1) once for each of `k` followers (12 R285, 09 R226): a draw gains units for those still to come, and what earlier
takes gave stays in w until the cordon forms. -/
def State.takeEach (s : State) (k : Nat) (form : State → Res) : Res :=
  let w := s.cur.t.w.toNat
  if k = 0 then form s
  else if k + 1 ≤ w then
    form (s.modCur (fun c => { c with t := { c.t with w := BitVec.ofNat 32 (w - k) }, txn := .none }))
  -- the take that fails finds one unit left
  else if s.drawLimit s.cur ≤ s.cur.t.draws then .trap cWeightStarved (BitVec.ofNat 64 (2 - min w 1))
  else s.drawMore

/-- `cordon` (12 R285, R296): s[d] := CORDSZ in every member. -/
def execCordon (d k : BitVec 5) (s : State) : Host.Outcome State Fault Refusal :=
  runWord (.cordon d k) s (fun s => s.clearedThen (fun s =>
    let n := s.ev.core
    let fs := s.followers n (k.toNat - 1)
    let size : W64 := BitVec.ofNat 64 (fs.length + 1)
    let form (s : State) : Res :=
      let lead := s.cur
      let s := fs.foldl (fun (s : State) m =>
        { s with nextRun := s.nextRun + 1 }.modCore m (fun c => followerOf c lead n s.nextRun)) s
      let s := s.modCur (fun c => { c with members := fs })
      let s := (s.renumber n).modCur (fun c => { c with ready := s.cycle + 20 + 2 * fs.length })
      let s := fs.foldl (fun (s : State) m => s.modCore m (fun c =>
        { c with t := c.t.setFile .s d.toNat (size.setWidth 512) })) s
      .ok (s.nowS d size)
    s.takeEach fs.length form))

/-- `uncordon` (12 R287, R297): every follower ends, its FLAGS joining FLAGSUM.ACC as at every end (05 R112, log entry 53); no
record takes them. The leader runs on. -/
def execUncordon (s : State) : Host.Outcome State Fault Refusal :=
  runWord .uncordon s (fun s =>
    let n := s.ev.core
    let ms := s.cur.members
    let s := s.meet ms
    if ms.isEmpty then .ok s
    else if ms.any (fun m => !(s.coreAt m).replay.isEmpty) then .wait (ms.foldl State.reissue s)
    else if ms.any (fun m => (s.coreAt m).uncleared || decide (0 < (s.coreAt m).unacked) || (s.coreAt m).dividing) then .wait s.endQuantum
    else s.areaPark (ms.flatMap s.endAreas) (fun s =>
      let s := ms.foldl (fun (s : State) m => s.endRun m true) s
      .ok (((s.dissolve ms).dissolve [n]).modCur (fun c => { c with ready := s.cycle + 4 + c.iss.stall }))))

/-- `qend` (12 R297). -/
def execQend (s : State) : Host.Outcome State Fault Refusal :=
  runWord .qend s (fun s => .ok s.endQuantum)

/-! ## The commit of held effects (12 R284) -/

/-- A held effect takes place at the quantum end. -/
def State.commitPacket (s : State) (p : Packet) : State :=
  match p.body with
  | .unhold id => s.releaseHandle id
  | .fset f v tag =>
    let st : W512 := if s.futState f = fsPending then 0 else 4
    let s := if st = 0 then s.resolve p.ctx f fsReady v.toNat else s
    s.modCore p.src (fun c => c.arriveAll tag st)
  | .fref f => s.addRef f
  | .fdrop f => s.dropRef p.ctx f
  | _ => { s with net := s.net ++ [p] }

/-- A packet of core `n` leaves, as its word made it. -/
def State.sendLater (s : State) (n : Nat) (e : Later) : State :=
  if e.msg then s.sendMsg n e.pkt
  else match e.pkt.body with
    | .fdrop f => if s.isDet (s.coreAt n) then s.emitNow n e.pkt else s.dropRef e.pkt.ctx f
    | .unhold id => if s.isDet (s.coreAt n) then s.emitNow n e.pkt else s.releaseHandle id
    | _ => s.emitNow n e.pkt
/-- The packets of core `n` that no earlier word holds back any more leave it, in order (06 R141). -/
def State.letLeave (s : State) (n : Nat) : Nat → State
  | 0 => s
  | fuel + 1 =>
    match (s.coreAt n).later with
    | e :: rest =>
      if (s.coreAt n).mayLeave e.instret then
        State.letLeave ((s.modCore n (fun c => { c with later := rest })).sendLater n e) n fuel
      else s
    | [] => s

/-- The core waits for a result that only the commit brings. -/
def Core.awaitsCommit (c : Core) : Bool :=
  decide (c.slot = .waiting) && c.mem.all (fun e => e.held || e.isJoin || e.performed)
    && c.heldOut.any (fun p => match p.body with | .fset _ _ _ => true | _ => false)

end Sys2Proof.Machine
end

