-- ==== Sys2Proof/Machine/LoadStore.lean ====
section
/-!
DEFINITION. Loads, stores, atomics, `pref`, `waita`, `genset` and `migr` (07 R187-R194).
-/
namespace Sys2Proof.Machine

/-- A word's access: the checks before it leaves the core (07 R186), room for it, then the thread's own move (07 R176). -/
def accessBody (use : Use) (a : W64) (n : Nat) (s : State) (k : State → Res) (room : Bool := true) : Res :=
  match s.accCheck s.cur use a n with
  | some code => .trap code a
  | none =>
    if room then
      match s.move a with
      | .stay s' => k s'
      | .wait => .wait s
      | .gone s' => .wait s'
    else .wait s.endQuantum

/-- The size of a scalar access, and whether it extends the sign. -/
structure Size where
  n : Nat
  sx : Bool
  deriving DecidableEq, Repr

def Size.form (z : Size) : LoadForm := if z.sx then .sext else .zext

/-- A load (07 R187). -/
def loadBody (d : BitVec 5) (a : W64) (z : Size) (h : BitVec 4) (o : Ord) (c : Scope) (hint : Hint) (s : State) : Res :=
  accessBody .load a z.n s (fun s =>
    match s.window a with
    | .gen g off => .ok (s.nowS d ((loadValue z.form (genBytes (s.cur.gen g) off z.n)).1.setWidth 64))
    | _ =>
      let x := s.newAccess .load z.form a (s.locsOf a z.n) [] h o c hint
      .ok (s.modCur (fun c => (c.expect .s d.toNat x.tag).push x)))

/-- A generator window. -/
def isGen (w : Window) : Bool := match w with | .gen _ _ => true | _ => false

/-- A store (07 R188): discarded through a sink descriptor, else it waits for room. -/
def storeBody (a : W64) (n : Nat) (data : W64) (h : BitVec 4) (o : Ord) (c : Scope) (hint : Hint) (s : State) : Res :=
  accessBody .store a n s (fun s =>
    match s.window a with
    | .gen _ _ => .ok s
    | _ =>
      let x := s.newAccess .store .zext a (s.locsOf a n) (toBytes n data.toNat) h o c hint
      .ok (s.modCur (fun c => c.push x))) (!s.storesFull || isGen (s.window a))

/-- An atomic (07 R189): old value to s[d], all ones to p7. -/
def amoBody (op : Nat) (d : BitVec 5) (a : W64) (h : BitVec 4) (o : Ord) (c : Scope) (hint : Hint) (s : State) : Res :=
  accessBody .atomic a 8 s (fun s =>
    let x := { s.newAccess (.atomic op) .zext a (s.locsOf a 8) (toBytes 8 (s.rs d).toNat) h o c hint with
                 data2 := if op = 9 then s.rs (d + 1) else 0 }
    .ok (s.modCur (fun c => ((c.expect .s d.toNat x.tag).expect .p 7 (x.tag + 1)).push x)).endQuantum)

/-- The MO forms add imm10 times the size, with the default fields (07 R187). -/
def moAddr (b : W64) (i : BitVec 10) (n : Nat) : W64 := b + sext10 i * BitVec.ofNat 64 n

def loadWord (i : Instr) (d b : BitVec 5) (h : BitVec 4) (o : Ord) (c : Scope) (n : Hint) (z : Size) (s : State) :
    Host.Outcome State Fault Refusal :=
  runWord i s (fun s => loadBody d (s.rs b) z h o c n s)
def loadOff (i : Instr) (d b : BitVec 5) (e : BitVec 10) (z : Size) (s : State) : Host.Outcome State Fault Refusal :=
  runWord i s (fun s => loadBody d (moAddr (s.rs b) e z.n) z 0 .plain .dev .default s)
def storeWord (i : Instr) (d b : BitVec 5) (h : BitVec 4) (o : Ord) (c : Scope) (n : Hint) (size : Nat) (s : State) :
    Host.Outcome State Fault Refusal :=
  runWord i s (fun s => storeBody (s.rs b) size (s.rs d) h o c n s)
def storeOff (i : Instr) (d b : BitVec 5) (e : BitVec 10) (size : Nat) (s : State) : Host.Outcome State Fault Refusal :=
  runWord i s (fun s => storeBody (moAddr (s.rs b) e size) size (s.rs d) 0 .plain .dev .default s)
def amoWord (i : Instr) (op : Nat) (d b : BitVec 5) (h : BitVec 4) (o : Ord) (c : Scope) (n : Hint) (s : State) :
    Host.Outcome State Fault Refusal :=
  runWord i s (fun s => amoBody op d (s.rs b) h o c n s)

def execLdB (d b : BitVec 5) (h : BitVec 4) (o : Ord) (c : Scope) (n : Hint) (s : State) :=
  loadWord (.ldB d b h o c n) d b h o c n ⟨1, true⟩ s
def execLdBz (d b : BitVec 5) (h : BitVec 4) (o : Ord) (c : Scope) (n : Hint) (s : State) :=
  loadWord (.ldBz d b h o c n) d b h o c n ⟨1, false⟩ s
def execLdH (d b : BitVec 5) (h : BitVec 4) (o : Ord) (c : Scope) (n : Hint) (s : State) :=
  loadWord (.ldH d b h o c n) d b h o c n ⟨2, true⟩ s
def execLdHz (d b : BitVec 5) (h : BitVec 4) (o : Ord) (c : Scope) (n : Hint) (s : State) :=
  loadWord (.ldHz d b h o c n) d b h o c n ⟨2, false⟩ s
def execLdW (d b : BitVec 5) (h : BitVec 4) (o : Ord) (c : Scope) (n : Hint) (s : State) :=
  loadWord (.ldW d b h o c n) d b h o c n ⟨4, true⟩ s
def execLdWz (d b : BitVec 5) (h : BitVec 4) (o : Ord) (c : Scope) (n : Hint) (s : State) :=
  loadWord (.ldWz d b h o c n) d b h o c n ⟨4, false⟩ s
def execLdD (d b : BitVec 5) (h : BitVec 4) (o : Ord) (c : Scope) (n : Hint) (s : State) :=
  loadWord (.ldD d b h o c n) d b h o c n ⟨8, false⟩ s
def execLdoB (d b : BitVec 5) (i : BitVec 10) (s : State) := loadOff (.ldoB d b i) d b i ⟨1, true⟩ s
def execLdoBz (d b : BitVec 5) (i : BitVec 10) (s : State) := loadOff (.ldoBz d b i) d b i ⟨1, false⟩ s
def execLdoH (d b : BitVec 5) (i : BitVec 10) (s : State) := loadOff (.ldoH d b i) d b i ⟨2, true⟩ s
def execLdoHz (d b : BitVec 5) (i : BitVec 10) (s : State) := loadOff (.ldoHz d b i) d b i ⟨2, false⟩ s
def execLdoW (d b : BitVec 5) (i : BitVec 10) (s : State) := loadOff (.ldoW d b i) d b i ⟨4, true⟩ s
def execLdoWz (d b : BitVec 5) (i : BitVec 10) (s : State) := loadOff (.ldoWz d b i) d b i ⟨4, false⟩ s
def execLdoD (d b : BitVec 5) (i : BitVec 10) (s : State) := loadOff (.ldoD d b i) d b i ⟨8, false⟩ s
def execStB (d b : BitVec 5) (h : BitVec 4) (o : Ord) (c : Scope) (n : Hint) (s : State) :=
  storeWord (.stB d b h o c n) d b h o c n 1 s
def execStH (d b : BitVec 5) (h : BitVec 4) (o : Ord) (c : Scope) (n : Hint) (s : State) :=
  storeWord (.stH d b h o c n) d b h o c n 2 s
def execStW (d b : BitVec 5) (h : BitVec 4) (o : Ord) (c : Scope) (n : Hint) (s : State) :=
  storeWord (.stW d b h o c n) d b h o c n 4 s
def execStD (d b : BitVec 5) (h : BitVec 4) (o : Ord) (c : Scope) (n : Hint) (s : State) :=
  storeWord (.stD d b h o c n) d b h o c n 8 s
def execStoB (d b : BitVec 5) (i : BitVec 10) (s : State) := storeOff (.stoB d b i) d b i 1 s
def execStoH (d b : BitVec 5) (i : BitVec 10) (s : State) := storeOff (.stoH d b i) d b i 2 s
def execStoW (d b : BitVec 5) (i : BitVec 10) (s : State) := storeOff (.stoW d b i) d b i 4 s
def execStoD (d b : BitVec 5) (i : BitVec 10) (s : State) := storeOff (.stoD d b i) d b i 8 s
def execAmoAdd (d b : BitVec 5) (h : BitVec 4) (o : Ord) (c : Scope) (n : Hint) (s : State) :=
  amoWord (.amoAdd d b h o c n) 0 d b h o c n s
def execAmoAnd (d b : BitVec 5) (h : BitVec 4) (o : Ord) (c : Scope) (n : Hint) (s : State) :=
  amoWord (.amoAnd d b h o c n) 1 d b h o c n s
def execAmoOr (d b : BitVec 5) (h : BitVec 4) (o : Ord) (c : Scope) (n : Hint) (s : State) :=
  amoWord (.amoOr d b h o c n) 2 d b h o c n s
def execAmoXor (d b : BitVec 5) (h : BitVec 4) (o : Ord) (c : Scope) (n : Hint) (s : State) :=
  amoWord (.amoXor d b h o c n) 3 d b h o c n s
def execAmoMax (d b : BitVec 5) (h : BitVec 4) (o : Ord) (c : Scope) (n : Hint) (s : State) :=
  amoWord (.amoMax d b h o c n) 4 d b h o c n s
def execAmoMin (d b : BitVec 5) (h : BitVec 4) (o : Ord) (c : Scope) (n : Hint) (s : State) :=
  amoWord (.amoMin d b h o c n) 5 d b h o c n s
def execAmoMaxu (d b : BitVec 5) (h : BitVec 4) (o : Ord) (c : Scope) (n : Hint) (s : State) :=
  amoWord (.amoMaxu d b h o c n) 6 d b h o c n s
def execAmoMinu (d b : BitVec 5) (h : BitVec 4) (o : Ord) (c : Scope) (n : Hint) (s : State) :=
  amoWord (.amoMinu d b h o c n) 7 d b h o c n s
def execAmoSwap (d b : BitVec 5) (h : BitVec 4) (o : Ord) (c : Scope) (n : Hint) (s : State) :=
  amoWord (.amoSwap d b h o c n) 8 d b h o c n s
def execCas (d b : BitVec 5) (h : BitVec 4) (o : Ord) (c : Scope) (n : Hint) (s : State) :=
  amoWord (.cas d b h o c n) 9 d b h o c n s

/-- `pref` (07 R191): a paged line is kept in its home core's L1, a cask line in L2, with its hint; every fault but UNIT_ABSENT
is dropped. -/
def execPref (b : BitVec 5) (h : BitVec 4) (o : Ord) (c : Scope) (n : Hint) (s : State) : Host.Outcome State Fault Refusal :=
  runWord (.pref b h o c n) s (fun s =>
    let a := s.rs b
    match s.accCheck s.cur .load a 1 with
    | some code => if code = cUnitAbsent then .trap code a else .ok s
    | none =>
      match s.window a with
      | .paged =>
        match s.look a.toNat with
        | .line l cached => .ok (s.keepLine a.toNat l cached n (s.l1For s.cur a))
        | .stop code => if code = cUnitAbsent then .trap code a else .ok s
        | _ => .ok s
      | .cask _ _ =>
        match s.look a.toNat with
        | .line l cached => .ok (s.keepLine a.toNat l cached n l.l1)
        | _ => .ok s
      | _ => .ok s)

/-- `waita` (07 R192): its access compares the doubleword with s[d] and sleeps while they are equal; the word goes on with
the value that differed. -/
def execWaita (d b : BitVec 5) (h : BitVec 4) (o : Ord) (c : Scope) (n : Hint) (s : State) : Host.Outcome State Fault Refusal :=
  runWord (.waita d b h o c n) s (fun s =>
    match s.cur.txn with
    | .waited v => .ok ((s.modCur (fun c => { c with txn := .none })).nowS d v)
    | .waita _ _ => .wait s
    | _ =>
      let a := s.rs b
      match s.accCheck s.cur .waita a 8 with
      | some code => .trap code a
      | none =>
        let x := s.newAccess .waita .zext a (s.locsOf a 8) (toBytes 8 (s.rs d).toNat) h o c n
        .wait (s.modCur (fun c => { c.push x with txn := .waita x.tag false })))

/-- `genset` (07 R193). -/
def execGenset (d a : BitVec 5) (g : BitVec 3) (s : State) : Host.Outcome State Fault Refusal :=
  runWord (.genset d a g) s (fun s => s.readyThen (s.rs a) 64 (fun s =>
    match s.syncLoad (s.rs a) 64 64 with
    | .stop r => r
    | .ok bs s =>
      let desc : BitVec 512 := BitVec.ofNat 512 (ofBytes bs)
      let live (s : State) : State :=
        s.modCur (fun c => { c with t := { c.t with gens := c.t.gens.set g.toNat desc g.isLt } })
      match s.ctxOf s.cur with
      | none => .ok (s.nowS d 2)
      | some x =>
        if genValid desc = false then .ok (s.nowS d 1)
        else if x.rcb.genblk = 0 then .ok ((live s).nowS d 3)
        else match s.syncStore (x.rcb.genblk + BitVec.ofNat 64 (64 * g.toNat)) bs 64 with
          | .stop r => r
          | .ok _ s => .ok ((live s).nowS d 0)))

/-- The target of `migr` (07 R194), or its status. -/
def State.migrTarget (s : State) (m : BitVec 1) (a : W64) : Except Nat Nat :=
  let n := s.ev.core
  let here (t : Nat) : Except Nat Nat :=
    match s.ctxOf s.cur with
    | none => .error 3
    | some x =>
      if t = n then .error 1
      else if x.cores.contains t = false then .error 3
      else if s.pinned n then .error 4
      else if s.idleIn t s.cur.ctxid = false ∨ 8 ≤ s.cur.fwd.length then .error 2
      else .ok t
  if m = 1 then here (a.extractLsb' 0 12).toNat
  else match s.window a with
    | .paged | .cask _ _ =>
      match s.ctxOf s.cur with
      | none => .error 3
      | some x => here (x.homeCore a.toNat)
    | _ => .error 5

/-- `migr` (07 R194): the thread resumes at the next word on the target, where s[d] is written. -/
def execMigr (d a : BitVec 5) (m : BitVec 1) (s : State) : Host.Outcome State Fault Refusal :=
  runWord (.migr d a m) s (fun s =>
    if s.cur.uncleared ∨ 0 < s.cur.unacked ∨ s.cur.dividing then .wait s.endQuantum
    else match s.migrTarget m (s.rs a) with
      | .error st => .ok (s.nowS d (BitVec.ofNat 64 st))
      | .ok t => .ok (s.sendThread s.ev.core (.core t) s.cur.t (some d.toNat)))

end Sys2Proof.Machine
end

