-- ==== Sys2Proof/Machine/Stream.lean ====
section
/-!
DEFINITION. Format-window encoding (07 R166), the accesses of vector registers (13 R320) and the stream registers
(13 R323-R327): pops, pushes and what a vector word's result does.
-/
namespace Sys2Proof.Machine

/-! ## Lanes (13 R300, R302) -/

/-- Lane `i` of width `w` bytes. -/
def laneAt (w : Nat) (v : W512) (i : Nat) : Nat := v.toNat / 2 ^ (8 * w * i) % 2 ^ (8 * w)
/-- The lanes of a register. -/
def lanes (w : Nat) (v : W512) : List Nat := (List.range (64 / w)).map (laneAt w v)
/-- A register from its lanes. -/
def ofLanes (w : Nat) (l : List Nat) : W512 := BitVec.ofNat 512 (packLanes w l)
/-- A slot of VTT as the word being issued finds it: its type, ZERO and OVF (13 Table 13-1). -/
def slotType (c : Core) (t : BitVec 2) : Nat := (vttType c.t.vtt t).toNat
def slotZero (c : Core) (t : BitVec 2) : Bool := c.t.vtt.getLsbD (8 * t.toNat + 4)
def slotOvf (c : Core) (t : BitVec 2) : Bool := c.t.vtt.getLsbD (8 * t.toNat + 5)
/-- The lane width of a type in bytes. -/
def widthOf (ty : Nat) : Nat := laneBytes (BitVec.ofNat 4 ty)

/-! ## Encoding (07 Table 7-2) -/

/-- Encoded bytes, the flags set and the stochastic words drawn. -/
structure Encoded where
  bytes : List Byte
  flags : BitVec 5
  draws : Nat
  deriving DecidableEq, Repr

/-- Encodes elements one by one; each may draw the next stochastic word. -/
def encodeEach (u : Nat → Nat) (w : Nat) (f : Nat → Nat → Rounded) (l : List Nat) : Encoded :=
  l.foldl (fun (a : Encoded) x =>
    let r := f x (u a.draws)
    { bytes := a.bytes ++ toBytes w r.bits, flags := a.flags ||| r.flags, draws := a.draws + (if r.drew then 1 else 0) })
    { bytes := [], flags := 0, draws := 0 }

/-- A ternary code of an INT8 (07 Table 7-2). -/
def ternaryOf (x : Nat) : Nat × BitVec 5 :=
  let v := sxBits 8 x
  (if v = 0 then 0 else if 0 < v then 1 else 3, if 1 < v.natAbs then flNV else 0)

/-- Two codes to a byte, element 2j low (05 R99). -/
def packCodes : List Nat → List Byte
  | a :: b :: l => BitVec.ofNat 8 (a % 16 + 16 * (b % 16)) :: packCodes l
  | _ => []

/-- BlockScale over groups of 16 values: the code bytes, and then the scale bytes (05 R108). -/
def encodeBlocks (u : Nat → Nat) (rm : Nat) (ieee : Bool) (gs : List (List Num)) : Encoded :=
  let r := gs.foldl (fun (a : Encoded × List Byte) g =>
    let (sb, codes, fl, n) := blockScale g rm ieee (fun k => u (a.1.draws + k))
    ({ bytes := a.1.bytes ++ packCodes codes, flags := a.1.flags ||| fl, draws := a.1.draws + n },
      a.2 ++ [BitVec.ofNat 8 sb])) (({ bytes := [], flags := 0, draws := 0 } : Encoded), ([] : List Byte))
  { r.1 with bytes := r.1.bytes ++ r.2 }

/-- The stored form of a register through a window: `u k` is stochastic word `k`. -/
def encodeWindow (fmt : Nat) (x : W512) (rm : Nat) (ieee : Bool) (u : Nat → Nat) : Encoded :=
  match fmt with
  | 1 => encodeEach u 1 (fun l k => roundTo (decodeFp bf16 l) e4m3 rm ieee k) (lanes 2 x)
  | 2 => encodeEach u 1 (fun l k => roundTo (decodeFp bf16 l) e5m2 rm ieee k) (lanes 2 x)
  | 3 =>
    let l := (lanes 2 x).map (decodeFp bf16)
    encodeBlocks u rm ieee [l.take 16, l.drop 16]
  | 4 => encodeEach u 1 (fun l k => toIntFmt (numOfInt (sxBits 16 l)) 8 rm k) (lanes 2 x)
  | 5 =>
    let l := (lanes 1 x).map ternaryOf
    { bytes := (List.range 16).map (fun j => BitVec.ofNat 8
        ((List.range 4).foldl (fun a i => a + (l.getD (4 * j + i) (0, 0)).1 * 4 ^ i) 0))
      flags := l.foldl (fun a e => a ||| e.2) 0, draws := 0 }
  | 6 => encodeEach u 2 (fun l k => roundTo (decodeFp fp32 l) bf16 rm ieee k) (lanes 4 x)
  | _ => { bytes := toBytes 64 x.toNat, flags := 0, draws := 0 }

/-! ## Vector accesses (13 R320) -/

/-- The format of the window of an address. -/
def State.fmtAt (s : State) (a : W64) : Nat := match s.window a with | .spad fmt _ _ _ => fmt | _ => 0
/-- The locations of the scale bytes of an fmt 3 access (07 R167). -/
def State.scaleLocs (s : State) (c : Core) (a : W64) : List Nat :=
  match s.window a with
  | .spad 3 _ _ off => (List.range 2).map (fun j =>
      let base := s.locate a
      base / 2 ^ 16 * 2 ^ 16 + (c.t.scaleb.toNat + off / 8 + j) % 2 ^ 16)
  | _ => []
/-- The locations of a vector access: the stored bytes, and then its scale bytes. -/
def State.vecLocs (s : State) (c : Core) (a : W64) : List Nat :=
  s.locsOf a (storedSize (s.fmtAt a)) ++ s.scaleLocs c a

/-- The stored form of a register at an address, as the current core encodes it. -/
def State.encodeAt (s : State) (a : W64) (x : W512) : Encoded :=
  encodeWindow (s.fmtAt a) x (modeOf s.cur.t.rmode) (s.cur.t.vtt.getLsbD 32) s.cur.srWord

/-- A vector store of the current core: its checks, its flags, and the store itself (13 R320). -/
def vstoreBody (a : W64) (x : W512) (h : BitVec 4) (o : Ord) (sc : Scope) (hint : Hint) (s : State) (k : Access → State → Res)
    (none_ : State → Res) : Res :=
  accessBody .vstore a (storedSize (s.fmtAt a)) s (fun s =>
    let e := s.encodeAt a x
    match s.srFault e.draws with
    | some (code, tval) => .trap code tval
    | none =>
      let go (s : State) : State := s.modCur (fun c => (c.raiseNow e.flags).drawn e.draws)
      match s.window a with
      | .gen _ _ => none_ (go s)
      | _ =>
        let y := s.newAccess .store .zext a (s.vecLocs s.cur a) e.bytes h o sc hint
        k y ((go s).modCur (fun c => c.push y))) (!s.storesFull || isGen (s.window a))

/-! ## Streams (13 R323-R327) -/

/-- Fields of a shape record (13 Table 13-7). -/
def shapeField (d : BitVec 256) (o n : Nat) : Nat := d.toNat / 2 ^ (8 * o) % 2 ^ (8 * n)
def Stream.extent (q : Stream) (i : Nat) : Nat := shapeField q.shape (8 + 2 * i) 2
def Stream.dmin (q : Stream) : Nat := shapeField q.shape 0x1C 1
def Stream.dmax (q : Stream) : Nat := shapeField q.shape 0x1D 1
/-- L: the number of strips. -/
def Stream.length (q : Stream) : Nat := q.extent 0 * q.extent 1 * q.extent 2 * q.extent 3
/-- addr(k) (13 R323). -/
def Stream.addr (q : Stream) (k : Nat) : W64 :=
  let st (i : Nat) : Int := sxBits 24 (shapeField q.shape (0x10 + 3 * i) 3)
  let i0 := k % q.extent 0
  let i1 := k / q.extent 0 % q.extent 1
  let i2 := k / (q.extent 0 * q.extent 1) % q.extent 2
  let i3 := k / (q.extent 0 * q.extent 1 * q.extent 2)
  BitVec.ofNat 64 (shapeField q.shape 0 8) + BitVec.ofInt 64 (i0 * st 0 + i1 * st 1 + i2 * st 2 + i3 * st 3)

/-- The stream of a vector register. -/
def Core.streamOf (c : Core) (r : Nat) : Option Stream :=
  if 28 ≤ r then (if h : r - 28 < 4 then c.t.streams[r - 28] else none) else none
def Core.setStream (c : Core) (r : Nat) (q : Option Stream) : Core :=
  { c with t := { c.t with streams := c.t.streams.setIfInBounds (r - 28) q } }

/-- The bound registers that a word names as sources. -/
def Core.popsOf (c : Core) (i : Instr) : List Nat :=
  (((sourcesOf i).filter (fun r => decide (r.1 = .v))).map (·.2)).eraseDups.filter (fun r => (c.streamOf r).isSome)
/-- A bound register that a word writes. -/
def Core.pushOf (c : Core) (i : Instr) : Option Nat :=
  (destsOf i).findSome? (fun d => match d with | .reg .v r => if (c.streamOf r).isSome then some r else none | _ => none)

/-- A pop that has to wait raises the depth, once (13 R326). -/
def Stream.starve (q : Stream) : Stream :=
  if q.waited then q else { q with depth := min q.dmax (q.depth + 1), quiet := 0, waited := true }
/-- A strip is being fetched ahead: the depth lets it. -/
def Stream.fetches (q : Stream) : Bool :=
  !q.write && q.parked.isNone && decide (q.fetched.length < q.depth) && decide (q.pos + q.fetched.length < q.length)
/-- A pop, at a time; 64 in a row without a wait lower the depth. -/
def Stream.popped (q : Stream) (now : Nat) : Stream :=
  let n := if q.waited then 0 else q.quiet + 1
  { q with since := if q.fetches then q.since else now, pos := q.pos + 1, fetched := q.fetched.drop 1, quiet := if n = 64 then 0 else n, waited := false,
           depth := if n = 64 then max q.dmin (q.depth - 1) else q.depth }

/-- How the pops of a word end. -/
inductive Pops where
  | ok (vals : List (Nat × W512)) (s : State)
  | stop (r : Res)
  deriving DecidableEq, Repr

/-- One pop (13 R325). -/
def State.popOne (s : State) (r : Nat) : Pops :=
  match s.cur.streamOf r with
  | none => .ok [] s
  | some q =>
    if q.write ∨ q.length ≤ q.pos then .stop (.trap cStream q.record)
    else match q.fetched with
      | [] => .stop (.wait (s.modCur (fun c => c.setStream r (some q.starve))))
      | e :: _ =>
        match e.trap with
        | some code => .stop (.trap code (q.addr q.pos))
        | none =>
          let v := decodeWindow (s.fmtAt (q.addr q.pos)) e.bytes
          .ok [(r, v.1)] (s.modCur (fun c =>
            { c.setStream r (some (q.popped s.time)) with ternbad := c.ternbad + BitVec.ofNat 32 v.2 }))

/-- The pops of some registers; none is made unless all can be. -/
def State.popAll (s : State) (rs : List Nat) : Pops :=
  match rs.findSome? (fun r => match s.popOne r with | .stop x => some x | .ok _ _ => none) with
  | some x => .stop x
  | none =>
    let p := rs.foldl (fun (a : List (Nat × W512) × State) r =>
      match a.2.popOne r with | .ok l s => (a.1 ++ l, s) | .stop _ => a) (([] : List (Nat × W512)), s)
    .ok p.1 p.2

/-- The strips that the results on their way to a register will push. -/
def Core.pending (c : Core) (r : Nat) : Nat := (c.pushes.filter (fun p => decide (p.reg = r))).length

/-- The bits of a result, and those that its register keeps. -/
def Core.keepBits (c : Core) (d : BitVec 5) (x : W512) (m : Option W512) : W512 :=
  match m with | none => x | some m => (c.rv d &&& ~~~m) ||| (x &&& m)

/-- What a pushed strip changes in its thread: the stream's position, FLAGS and SRCTR. -/
def Thread.landed (t : Thread) (r : Nat) (tag : Option Nat) (e : Encoded) : Thread :=
  let next (q : Stream) : Stream := { q with pos := q.pos + 1, tags := q.tags ++ tag.toList }
  { t.drawn e.draws with
    flags := t.flags ||| e.flags
    streams := Vector.ofFn (fun (i : Fin 4) => if 28 + i.val = r then t.streams[i].map next else t.streams[i]) }
/-- The same in the thread, and in those that a fault of a later word would restore. -/
def Core.landed (c : Core) (p : Push) (tag : Option Nat) (e : Encoded) : Core :=
  let later (i : W64) (t : Thread) : Thread := if p.instret.toNat < i.toNat then t.landed p.reg tag e else t
  { c with t := c.t.landed p.reg tag e
           mem := c.mem.map (fun (a : Access) => { a with before := later a.instret a.before })
           pushes := c.pushes.map (fun (q : Push) => { q with before := later q.instret q.before })
           iss := { c.iss with before := later c.iss.instret c.iss.before } }

/-- The state in which the strip of a push is stored: core `n` at the push's word, without the push. -/
def State.atPush (s : State) (n : Nat) (p : Push) : State :=
  { s with ev := { s.ev with core := n } }.modCore n (fun c => { c with
    pushes := c.pushes.filter (fun q => decide (q ≠ p)), iss := { c.iss with pc := p.pc, before := p.before, instret := p.instret } })
/-- What the step and the slot of core `n` were about, as in `s`. -/
def State.backTo (s' : State) (s : State) (n : Nat) (p : Push) : State :=
  { s' with ev := s.ev }.modCore n (fun c => { c with iss :=
    { (s.coreAt n).iss with before := if p.instret.toNat < (s.coreAt n).iss.instret.toNat then c.iss.before else (s.coreAt n).iss.before } })

/-- A visible result is pushed: the strip's store issues, or its word takes the store's fault once nothing before it can
fault (13 R325, 06 R141). None where it waits. -/
def State.landPush (s : State) (n : Nat) (p : Push) : Option State :=
  match (s.coreAt n).streamOf p.reg with
  | none => none
  | some q =>
    let a := q.addr q.pos
    let s0 := s.atPush n p
    let e := s0.encodeAt a p.val
    match vstoreBody a p.val 0 .plain .dev .stream s0
        (fun y s => .ok (s.modCur (fun c => c.landed p (some y.tag) e))) (fun s => .ok (s.modCur (fun c => c.landed p none e))) with
    | .ok s' => some (s'.backTo s n p)
    | .wait _ => none
    | .trap code tval =>
      let c := s0.coreAt n
      if c.clearedBefore p.instret && c.mem.all (fun x => x.cleared || decide (x.instret ≠ p.instret)) then
        let y := s0.newAccess .store .zext a [] [] 0 .plain .dev .stream
        some { (s0.modCur (fun c => c.push y)).lateFault n c.mem.length code tval with ev := s.ev }
      else none

/-- The next result of core `n` to be pushed: the one visible first, of those that are known and due at a nominal slot time. -/
def Core.duePush (c : Core) (due : Nat → Bool) : Option Push :=
  (c.pushes.filter (fun p => (p.visible.map due).getD false)).foldl (fun (b : Option Push) p => match b with
    | none => some p
    | some x => if p.visible.getD 0 < x.visible.getD 0 then some p else some x) none
/-- Results whose slot time has come are pushed; while a slot waits, each as soon as it is known. -/
def State.landNext (s : State) (n : Nat) (all : Bool) : Option State :=
  let c := s.coreAt n
  (c.duePush (fun v => all || decide (c.slot = .waiting) || decide (v ≤ c.t.nom))).bind (fun p => s.landPush n p)

/-- The words of a pair issue together (02 R40): where word 0 can go only once word 1's strip is stored, as `trap`, `end` or a
full store buffer has it, the strip is stored at once if nothing earlier holds it back. None where it cannot be. -/
def State.pushNow (s : State) (n : Nat) : Option Sync :=
  let c := s.coreAt n
  match c.pushes with
  | [p] =>
    match c.streamOf p.reg with
    | none => none
    | some q =>
      let a := q.addr q.pos
      let s0 := s.atPush n p
      let e := s0.encodeAt a p.val
      if c.uncleared = false ∨ c.mem.any (fun x => !x.performed && !x.isJoin) = true ∨ (s.isDet c && !c.qgo) = true then none
      else match s0.accCheck s0.cur .vstore a (storedSize (s0.fmtAt a)), s0.srFault e.draws with
      | some code, _ => some (.stop (.trap code a))
      | none, some (code, tval) => some (.stop (.trap code tval))
      | none, none =>
        let done (s' : State) : Sync := .ok [] ((s'.modCore n (fun c => c.landed p none e)).backTo s n p)
        if isGen (s.window a) then some (done s0)
        else match s0.writeAccess n (s0.newAccess .store .zext a (s0.vecLocs s0.cur a) e.bytes 0 .plain .dev .stream)
            (s0.vecLocs s0.cur a) e.bytes with
        | .done _ s' => some (done s')
        | .wait => none
        | .park k => some (s0.syncPark a k)
        | .fault code tval => some (.stop (.trap code tval))
  | _ => none

/-! ## Vector words -/

/-- What the vector sources of a word read: popped strips first. -/
def vsrc (vals : List (Nat × W512)) (c : Core) (r : BitVec 5) : W512 :=
  match vals.find? (fun e => decide (e.1 = r.toNat)) with
  | some e => e.2
  | none => c.rv r

/-- A word with vector operands: a word that pops and pushes one stream, or pushes out of turn, takes STREAM; then its
pops; then its effect. A word that pops nothing is an ordinary word. -/
def vecWord (i : Instr) (s : State) (body : (BitVec 5 → W512) → State → Res) : Host.Outcome State Fault Refusal :=
  runWord i s (fun s =>
    let pops := s.cur.popsOf i
    let bad : Option W64 := match s.cur.pushOf i with
      | none => none
      | some r => (s.cur.streamOf r).bind (fun q =>
          if pops.contains r || !q.write || decide (q.length ≤ q.pos + s.cur.pending r) then some q.record else none)
    match bad with
    | some a => .trap cStream a
    | none =>
      match s.popAll pops with
      | .stop r => r
      | .ok vals s1 =>
        match body (vsrc vals s1.cur) s1 with
        | .wait s2 =>
          -- a word that waits has popped nothing
          .wait (if pops.isEmpty then s2 else s2.modCur (fun c =>
            { c with ternbad := s.cur.ternbad, t := { c.t with streams := s.cur.t.streams } }))
        | r => r)

/-- A vector result of fixed latency, or a push of it; inactive bits are kept. A float word has flags (05 R110). -/
def State.vOut (s : State) (d : BitVec 5) (x : W512) (m : Option W512) (lat : Nat) (fl : Option (BitVec 5)) : Res :=
  let s' := match fl with | none => s | some f => s.modCur (fun c => c.raise f lat)
  match s.cur.streamOf d.toNat with
  | none => .ok (s'.modCur (fun c => c.outMask .v d.toNat x m lat))
  | some _ =>
    if s.storesFull then .wait s.endQuantum
    else .ok (s'.modCur (fun c => c.willPush d.toNat (c.keepBits d x m) (some (c.iss.nom + lat)) 0))

end Sys2Proof.Machine
end

