-- ==== Sys2Proof/Machine/VectorMem.lean ====
section
/-!
DEFINITION. The C-class vector words (13 R319-R331): loads, stores, gathers, scatters, `vamo`, the stream words, and
`vsave` and `vrest`.
-/
namespace Sys2Proof.Machine

/-- A bound register cannot take a push now: no store fits (07 R186). -/
def State.noRoom (s : State) (d : BitVec 5) : Bool := (s.cur.streamOf d.toNat).isSome && s.storesFull
/-- An interlocked vector result of the access with a tag: to its register, or to be pushed (13 R325). -/
def Core.expectOr (c : Core) (d : BitVec 5) (tag : Nat) (x : W512) (m : Option W512) : Core :=
  match c.streamOf d.toNat with
  | none => c.expectV d.toNat tag x m
  | some _ => c.willPush d.toNat (c.keepBits d x m) none tag
/-- An interlocked vector result that is known at once. -/
def Core.outOr (c : Core) (d : BitVec 5) (x : W512) (m : Option W512) : Core :=
  match c.streamOf d.toNat with
  | none => c.outMask .v d.toNat x m 0
  | some _ => c.willPush d.toNat (c.keepBits d x m) (some c.iss.nom) 0

/-- `vld` (13 R320). -/
def execVld (d b : BitVec 5) (h : BitVec 4) (o : Ord) (c : Scope) (n : Hint) (s : State) : Host.Outcome State Fault Refusal :=
  vecWord (.vld d b h o c n) s (fun _ s =>
    let a := s.rs b
    let fmt := s.fmtAt a
    accessBody .vload a (storedSize fmt) s (fun s =>
      match s.window a with
      | .gen g off => .ok (s.modCur (fun c => c.outOr d (BitVec.ofNat 512 (ofBytes (genBytes (c.gen g) off 64))) none))
      | _ =>
        let x := s.newAccess .load (.vec fmt) a (s.vecLocs s.cur a) [] h o c n
        .ok (s.modCur (fun c => (c.expectOr d x.tag 0 none).push x))) (!s.noRoom d))

/-- `vst` (13 R320). -/
def execVst (d b : BitVec 5) (h : BitVec 4) (o : Ord) (c : Scope) (n : Hint) (s : State) : Host.Outcome State Fault Refusal :=
  vecWord (.vst d b h o c n) s (fun v s => vstoreBody (s.rs b) (v d) h o c n s (fun _ s => .ok s) (fun s => .ok s))

/-! ## Gathers and scatters (13 R321) -/

/-- The checks of one lane. -/
def State.laneCheck (s : State) (c : Core) (use : Use) (a : W64) (w : Nat) : Option (BitVec 8) :=
  match s.window a with
  | .regs off =>
    if (devReg off).isNone && !inQstat off then some cBadAddress
    else if a.toNat % w ≠ 0 then some cAlign else some cWindowMisuse
  | _ => s.accCheck c use a w

/-- Vector words whose lanes are not all performed, with those held (13 R329). -/
def Core.gathersOut (c : Core) : Nat :=
  ((c.mem.filter Access.isLane).map (·.tag)).eraseDups.length
    + c.replay.length

/-- The active lanes with their addresses. -/
def laneAddrs (w : Nat) (idx : W512) (base pred : W64) : List (Nat × W64) :=
  (List.range (64 / w)).filterMap (fun i =>
    if pred.getLsbD i then some (i, base + BitVec.ofInt 64 (sxBits (8 * w) (laneAt w idx i) * w)) else none)

/-- Fails with the fault of the lowest failing lane. -/
def State.lanesThen (s : State) (use : Use) (w : Nat) (l : List (Nat × W64)) (k : Res) : Res :=
  match l.findSome? (fun e => (s.laneCheck s.cur use e.2 w).map (fun code => (code, e.2))) with
  | some (code, a) => .trap code a
  | none => k

/-- The lanes of a gather that a generator window computes. -/
def State.genLane (s : State) (w : Nat) (a : W64) : Option Nat :=
  match s.window a with
  | .gen g off => some (ofBytes (genBytes (s.cur.gen g) off w))
  | _ => none

/-- The lanes' accesses: the thread may move for the first; each of the others is one more of the word's accesses to another
core's line (07 R176). -/
def State.lanesMove (s : State) (l : List (Nat × W64)) (k : State → Res) : Res :=
  match l with
  | [] => k s
  | e :: rest =>
    match s.move e.2 with
    | .wait => .wait s
    | .gone s' => .wait s'
    | .stay s' => k (rest.foldl (fun (s : State) e => match s.otherHome s.ev.core e.2 with
        | some home => if s.cur.t.homepol = 0 then s.modCur (fun c => c.train home) else s
        | none => s) s')

/-- `vgath` (13 R321). -/
def execVgath (d a b : BitVec 5) (p : BitVec 3) (t : BitVec 2) (s : State) : Host.Outcome State Fault Refusal :=
  vecWord (.vgath d a b p t) s (fun v s =>
    let c := s.cur
    let w := widthOf (slotType c t)
    let pred := s.rp p
    let l := laneAddrs w (v a) (s.rs b) pred
    s.lanesThen .load w l (
      if 4 ≤ c.gathersOut ∨ s.noRoom d = true then .wait s.endQuantum
      else
        let known := l.filterMap (fun e => (s.genLane w e.2).map (fun x => (e.1, x)))
        let val : W512 := known.foldl (fun x e => x ||| BitVec.ofNat 512 (e.2 * 2 ^ (8 * w * e.1))) 0
        let mask : Option W512 := if slotZero c t then none else some (predMask w pred)
        let mem := l.filter (fun e => (s.genLane w e.2).isNone)
        let tag := c.nextTag
        if mem.isEmpty then .ok (s.modCur (fun c => c.outOr d val mask))
        else s.lanesMove mem (fun s => .ok (mem.foldl (fun (s : State) e =>
          let x := { s.newAccess .load (.lane e.1 w) e.2 (s.locsOf e.2 w) [] 0 .plain .dev .default with tag := tag }
          s.modCur (fun c => c.push x)) (s.modCur (fun c => c.expectOr d tag val mask))))))

/-- `vscat` (13 R321): the lanes store in increasing order. -/
def execVscat (d a b : BitVec 5) (p : BitVec 3) (t : BitVec 2) (s : State) : Host.Outcome State Fault Refusal :=
  vecWord (.vscat d a b p t) s (fun v s =>
    let c := s.cur
    let w := widthOf (slotType c t)
    let l := laneAddrs w (v a) (s.rs b) (s.rp p)
    s.lanesThen .store w l (
      let mem := l.filter (fun e => match s.window e.2 with | .gen _ _ => false | _ => true)
      if mem.isEmpty then .ok s
      else if 4 ≤ c.gathersOut ∨ (if s.isDet c then 256 else 32) < c.unacked + c.pushes.length + mem.length ∧ c.unacked + c.pushes.length ≠ 0 then .wait s.endQuantum
      else
        let tag := c.nextTag
        s.lanesMove mem (fun s => .ok (mem.foldl (fun (s : State) e =>
          let x := { s.newAccess .store (.lane e.1 w) e.2 (s.locsOf e.2 w) (toBytes w (laneAt w (v d) e.1)) 0 .plain .dev .default
                       with tag := tag }
          s.modCur (fun c => c.push x)) s))))

/-- `vamo` (13 R322). -/
def execVamo (d : BitVec 5) (o : BitVec 2) (b : BitVec 5) (p : BitVec 3) (t : BitVec 2) (s : State) :
    Host.Outcome State Fault Refusal :=
  vecWord (.vamo d o b p t) s (fun v s =>
    let a := s.rs b
    accessBody .vatomic a 64 s (fun s =>
      let c := s.cur
      let w := widthOf (slotType c t)
      let pred := s.rp p
      let zero := slotZero c t
      let x := s.newAccess (.vatomic o.toNat w pred zero) .zext a (s.locsOf a 64) (toBytes 64 (v d).toNat) 0 .plain .dev .default
      .ok (s.modCur (fun c => (c.expectOr d x.tag 0 (if zero then none else some (predMask w pred))).push x)).endQuantum)
      (!s.noRoom d))

/-! ## Stream words (13 R324, R327) -/

/-- The record keeps the limits of 13 Table 13-7. -/
def State.shapeOk (s : State) (q : Stream) : Bool :=
  let base : W64 := BitVec.ofNat 64 (shapeField q.shape 0 8)
  let z := storedSize (s.fmtAt base)
  (match s.window base with | .paged | .spad _ _ _ _ | .cask _ _ => true | .gen _ _ => !q.write | _ => false)
    && decide (base.toNat % z = 0)
    && (List.range 4).all (fun i => decide (1 ≤ q.extent i) && decide (shapeField q.shape (0x10 + 3 * i) 3 % z = 0))
    && decide (1 ≤ q.dmin) && decide (q.dmin ≤ q.dmax) && decide (q.dmax ≤ 16)

/-- `sbind` (13 R324). -/
def execSbind (n : BitVec 2) (a : BitVec 5) (r : BitVec 1) (s : State) : Host.Outcome State Fault Refusal :=
  runWord (.sbind n a r) s (fun s => s.quietThen (fun s =>
    let addr := s.rs a
    match s.syncLoad addr 32 32 with
    | .stop x => x
    | .ok bs s =>
      let q : Stream := { record := addr, shape := BitVec.ofNat 256 (ofBytes bs), write := decide (r = 1), pos := 0, depth := 0,
                          quiet := 0, waited := false, fetched := [], parked := none, tags := [], since := s.time }
      if s.shapeOk q = false ∨ (s.cur.streamOf (28 + n.toNat)).isSome = true then .trap cStream addr
      else .ok (s.modCur (fun c => c.setStream (28 + n.toNat) (some { q with depth := if q.write then 0 else q.dmin })))))

/-- `sfree` (13 R327): a write stream waits for its pushed strips. -/
def execSfree (d : BitVec 5) (n : BitVec 2) (s : State) : Host.Outcome State Fault Refusal :=
  runWord (.sfree d n) s (fun s =>
    match s.cur.streamOf (28 + n.toNat) with
    | none => .ok (s.nowS d 0)
    | some q =>
      if s.cur.mem.any (fun x => q.tags.contains x.tag) || decide (0 < s.cur.pending (28 + n.toNat)) then .wait s.endQuantum
      else .ok ((s.modCur (fun c => c.setStream (28 + n.toNat) none)).nowS d (BitVec.ofNat 64 q.pos)))

/-! ## vsave and vrest (13 R330, R331) -/

/-- The 1,024 bytes of a block, by its context and number: private to the device (log entry 19). -/
def blockBytes (ctx : W32) (id : Nat) : List Byte :=
  ((List.range 128).map (fun j => toBytes 8 (Config.checkWord ctx (BitVec.ofNat 64 (id * 128 + j))).toNat)).flatten
/-- Sixteen lines from an address, stored or loaded one by one. -/
def State.storeLines (s : State) (a : W64) (bs : List Byte) : Nat → Except Res State
  | 0 => .ok s
  | n + 1 =>
    match s.storeLines a bs n with
    | .error r => .error r
    | .ok s => match s.syncStore (a + BitVec.ofNat 64 (64 * n)) ((bs.drop (64 * n)).take 64) 64 with
      | .stop r => .error r
      | .ok _ s => .ok s
def State.loadLines (s : State) (a : W64) : Nat → Except Res (List Byte × State)
  | 0 => .ok ([], s)
  | n + 1 =>
    match s.loadLines a n with
    | .error r => .error r
    | .ok (l, s) => match s.syncLoad (a + BitVec.ofNat 64 (64 * n)) 64 64 with
      | .stop r => .error r
      | .ok bs s => .ok (l ++ bs, s)

/-- A word's own plain store of some bytes may be made now: nothing earlier holds it back (08 R196, R198, R203). -/
def State.readyToStore (s : State) (a : W64) (n : Nat) : Bool :=
  s.cur.mem.all (fun e => !s.blocks s.cur e (s.newAccess .store .zext a (s.locsOf a n) [] 0 .plain .dev .default))

/-- `vsave` (13 R330): it waits for no strip but by the order of its own stores. -/
def execVsave (d a : BitVec 5) (s : State) : Host.Outcome State Fault Refusal :=
  runWord (.vsave d a) s (fun s => s.gateThen (fun s =>
    let c := s.cur
    if s.readyToStore (s.rs a) 1024 = false then .wait s
    else
    let id := s.vblocks.length
    match s.storeLines (s.rs a) (blockBytes c.ctxid id) 16 with
    | .error r => r
    | .ok s =>
      let blk : VBlock := { ctx := c.ctxid, held := c.replay, streams := c.t.streams, restored := false, by_ := (0, 0) }
      let mask := (List.range 4).foldl (fun m i => if (c.streamOf (28 + i)).isSome then m + 2 ^ i else m) 0
      let s := { s with vblocks := FMap.put s.vblocks id blk }
      let s := s.modCur (fun c => { c with replay := [], t := { c.t with streams := Vector.replicate 4 none } })
      .ok (s.nowS d (BitVec.ofNat 64 (mask * 16 + c.replay.length)))))

/-- `vrest` (13 R331). DESIGN CHOICE (log entry 56): where the core has held words of its own, the block's are put behind them and all are
issued again. -/
def execVrest (d a : BitVec 5) (s : State) : Host.Outcome State Fault Refusal :=
  runWord (.vrest d a) s (fun s => s.quietThen (fun s =>
    match s.loadLines (s.rs a) 16 with
    | .error r => r
    | .ok (bs, s) =>
      match s.vblocks.find? (fun e => decide (blockBytes e.2.ctx e.1 = bs)) with
      | none => .ok (s.nowS d 6)
      | some (id, blk) =>
        if blk.restored = true ∨ blk.ctx ≠ s.cur.ctxid then .ok (s.nowS d 6)
        else
          let bind (q : Stream) : Stream :=
            { q with depth := if q.write then 0 else q.dmin, quiet := 0, waited := false, fetched := [], parked := none, tags := [], since := s.time }
          let s := { s with vblocks := FMap.put s.vblocks id { blk with
            restored := true, by_ := (s.ev.core, s.cur.iss.instret) } }
          let s := s.modCur (fun c => { c with
            replay := c.replay ++ blk.held, t := { c.t with streams := blk.streams.map (fun q => q.map bind) } })
          .ok ((s.reissue s.ev.core).nowS d 0)))

end Sys2Proof.Machine
end

