-- ==== Sys2Proof/Machine/Engines.lean ====
section
/-!
DEFINITION. The copy engine, the press and the cask (15): the six words, and what the engines do with their commands.
-/
namespace Sys2Proof.Machine

/-! ## Copy descriptors (15 R339, R340) -/

def descAt (d : BitVec 1024) (o n : Nat) : Nat := d.toNat / 2 ^ (8 * o) % 2 ^ (8 * n)
def CopyCmd.src (k : CopyCmd) : Nat := descAt k.desc 0 8
def CopyCmd.dst (k : CopyCmd) : Nat := descAt k.desc 8 8
def CopyCmd.siga (k : CopyCmd) : Nat := descAt k.desc 0x10 8
def CopyCmd.sigv (k : CopyCmd) : Nat := descAt k.desc 0x18 8
def CopyCmd.row (k : CopyCmd) : Nat := descAt k.desc 0x20 4
def CopyCmd.ndim (k : CopyCmd) : Nat := descAt k.desc 0x24 1
/-- Extent `i` (1 to 6): 1 above NDIM. -/
def CopyCmd.extent (k : CopyCmd) (i : Nat) : Nat := if i < k.ndim then descAt k.desc (0x28 + 4 * (i - 1)) 4 else 1
def CopyCmd.stride (k : CopyCmd) (base i : Nat) : Int := sxBits 32 (descAt k.desc (base + 4 * (i - 1)) 4)
/-- The number of runs, and the total size. -/
def CopyCmd.runs (k : CopyCmd) : Nat := (List.range 6).foldl (fun n i => n * k.extent (i + 1)) 1
def CopyCmd.total (k : CopyCmd) : Nat := k.row * k.runs
/-- The offset of run `r`: its digits in mixed radix times the strides. -/
def CopyCmd.runOff (k : CopyCmd) (base r : Nat) : Int :=
  ((List.range 6).foldl (fun (x : Int × Nat) i =>
    let e := k.extent (i + 1)
    (x.1 + (x.2 % e : Nat) * k.stride base (i + 1), x.2 / e)) (0, r)).1
def CopyCmd.runSrc (k : CopyCmd) (r : Nat) : W64 := BitVec.ofNat 64 k.src + BitVec.ofInt 64 (k.runOff 0x40 r)
def CopyCmd.runDst (k : CopyCmd) (r : Nat) : W64 := BitVec.ofNat 64 k.dst + BitVec.ofInt 64 (k.runOff 0x58 r)

/-- The contribution window (17 R370): group, seq and offset. -/
def contribOf (a : W64) : Option (Nat × Nat × Nat) :=
  let n := a.toNat
  if 0x00FE_4000_0000_0000 ≤ n ∧ n < 0x00FE_4000_0000_0000 + 2 ^ 38 then
    let x := n - 0x00FE_4000_0000_0000
    some (x / 2 ^ 28, x / 2 ^ 16 % 2 ^ 12, x % 2 ^ 16)
  else none

/-- The signal address is an own-device fmt-0 scratchpad doubleword. -/
def State.sigOk (s : State) (a : Nat) : Bool :=
  decide (a = 0) || (decide (a % 8 = 0) && (match s.window (BitVec.ofNat 64 a) with
    | .spad 0 dev _ _ => decide (dev = s.devid) | _ => false))

def stBadSize : Nat := 1
def stBadDesc : Nat := 2
def stFault : Nat := 3
def stNoUnit : Nat := 4
def stDepFail : Nat := 5
def stReclaimed : Nat := 6
def stReduceAborted : Nat := 7

/-- Validation of a command (15 R340): none when bytes are to be moved, else its status. -/
def State.copyCheck (s : State) (k : CopyCmd) : Option Nat :=
  if k.ndim = 0 ∨ 7 < k.ndim then some stBadDesc
  else if k.total = 0 then some 0
  else if k.row % 4 ≠ 0 then some stBadSize
  else if k.src % 4 ≠ 0 ∨ k.dst % 4 ≠ 0 ∨ s.sigOk k.siga = false
      ∨ (List.range 6).any (fun i => decide (k.stride 0x40 (i + 1) % 4 ≠ 0) || decide (k.stride 0x58 (i + 1) % 4 ≠ 0)) = true
      then some stBadDesc
  else if (List.range k.runs).any (fun r => (List.range k.row).any (fun i =>
      s.namesAbsent (k.runSrc r + BitVec.ofNat 64 i) || s.namesAbsent (k.runDst r + BitVec.ofNat 64 i)))
      || (decide (k.siga ≠ 0) && s.namesAbsent (BitVec.ofNat 64 k.siga)) then some stNoUnit
  else none

/-! ## Engine accesses (15 R342) -/

/-- The core as an engine's access sees it: the level and the context of the issuing word. -/
def Core.as (c : Core) (level : BitVec 2) (ctx : Nat) : Core := { c with pl := level, ctxid := BitVec.ofNat 32 ctx }
/-- A command reads the generators as they were when it was issued (07 R193). -/
def CopyCmd.core (k : CopyCmd) (c : Core) : Core :=
  { c with pl := k.level, ctxid := BitVec.ofNat 32 k.ctx, t := { c.t with gens := k.gens } }

/-- What stops an engine's access. -/
inductive EngStop where
  /-- a walk met an invalid entry -/
  | park (pte : Nat) (addr : W64)
  /-- the place waits -/
  | wait (addr : W64)
  | fault (code : BitVec 8) (addr : W64)
  deriving DecidableEq, Repr

/-- Where a walk for an engine of a context is parked; none where it faults at once (07 R181). -/
def State.engPark (s : State) (ctx : Nat) (a : W64) (pte : Nat) : Option (Nat × Nat) :=
  if ctx = 0 ∨ 256 ≤ s.monitors (s.homeSlice a.toNat) then none else some (s.parkKey pte (s.homeSlice a.toNat), s.time)

/-- An engine reads `w` bytes. -/
def State.engRead (s : State) (c : Core) (a : W64) (w : Nat) : Except EngStop (List Byte) :=
  match s.laneCheck c .load a w with
  | some code => .error (.fault code a)
  | none =>
    match s.window a with
    | .gen g off => .ok (genBytes (c.gen g) off w)
    | _ => match s.readLocs (s.locsOf a w) .bypass none with
      | .ok bs _ => .ok bs
      | .invalid p => .error (.park p a)
      | .stop code => .error (.fault code a)

/-- An engine reads a list of pieces in order: addresses with their sizes. -/
def State.engReads (s : State) (c : Core) : List (W64 × Nat) → Except EngStop (List Byte)
  | [] => .ok []
  | (a, w) :: l =>
    if (s.locsOf a w).any s.blockedPlace then .error (.wait a)
    else do
      let bs ← s.engRead c a w
      let bs' ← s.engReads c l
      return bs ++ bs'

/-- An engine writes bytes at an address; a sink discards them. -/
def State.engWrite (s : State) (c : Core) (a : W64) (bs : List Byte) : Except EngStop State :=
  match s.laneCheck c .store a bs.length with
  | some code => .error (.fault code a)
  | none =>
    match s.window a with
    | .gen _ _ => .ok s
    | _ => match s.writeLocs (s.locsOf a bs.length) bs .bypass none with
      | .ok _ s' => .ok { s'.dropVisitor (s.locsOf a bs.length) with links := s.linksAfter (s.locsOf a bs.length) false }
      | .invalid p => .error (.park p a)
      | .stop code => .error (.fault code a)

/-- A combined word (15 R343). -/
def combWord (op : BitVec 1) (old new : Nat) : Nat := if op = 0 then old ^^^ new else (old + new) % 2 ^ 32

/-- Cuts bytes into words of 4. -/
def wordsOf : List Byte → List (List Byte)
  | a :: b :: c :: d :: l => [a, b, c, d] :: wordsOf l
  | _ => []

/-! ## Commands at work (15 R341-R345) -/

def State.cmdAt (s : State) (n k : Nat) : Option CopyCmd := (s.coreAt n).copyq[k]?
def State.setCmd (s : State) (n k : Nat) (x : CopyCmd) : State := s.modCore n (fun c => { c with copyq := setAt c.copyq k x })
/-- The command's context is deterministic (15 R348). -/
def State.detCtx (s : State) (ctx : Nat) : Bool :=
  match s.ctx? ctx with | some x => decide (ctx ≠ 0) && x.rcb.modef.getLsbD 1 | none => false

/-- The chunk that comes next: its source, its destination and its size. -/
def CopyCmd.chunk (k : CopyCmd) : W64 × W64 × Nat :=
  let row := if k.row = 0 then 1 else k.row
  let r := k.count / row
  let o := k.count % row
  (k.runSrc r + BitVec.ofNat 64 o, k.runDst r + BitVec.ofNat 64 o, min 256 (k.row - o))

/-- What a held command has written to a word already, as its own later chunks read it (15 R341). -/
def CopyCmd.seeWord (k : CopyCmd) (a : Nat) (mem : List Byte) : List Byte :=
  let at_ (i : Nat) : List Byte := k.held.filterMap (fun e => if e.1 = a + i then some e.2 else none)
  match k.comb with
  | none => (mem.zip (List.range 4)).map (fun e => (at_ e.2).getLast?.getD e.1)
  | some op =>
    let n := (at_ 0).length
    toBytes 4 ((List.range n).foldl (fun x j =>
      combWord op x (ofBytes ((List.range 4).map (fun i => (at_ i).getD j 0)))) (ofBytes mem))

/-- Reads up to `m` further words of a chunk from `a` on, in order: the bytes with those read, and what stopped it. -/
def State.chunkRead (s : State) (c : Core) (k : CopyCmd) (a : W64) : Nat → List Byte → List Byte × Option EngStop
  | 0, bs => (bs, none)
  | m + 1, bs =>
    let w := a + BitVec.ofNat 64 bs.length
    if (s.locsOf w 4).any s.blockedPlace then (bs, some (.wait w))
    else match s.engRead c w 4 with
    | .ok b => s.chunkRead c k a m (bs ++ (if k.held.isEmpty then b else k.seeWord w.toNat b))
    | .error e => (bs, some e)

/-- A word as a command writes it at an address: combined with what is there where the command combines (15 R343). -/
def State.chunkWord (s : State) (c : Core) (comb : Option (BitVec 1)) (a : W64) (w : List Byte) : Except EngStop (List Byte) :=
  match comb with
  | none => .ok w
  | some op => (s.engRead c a 4).map (fun old => toBytes 4 (combWord op (ofBytes old) (ofBytes w)))

/-- Writes the words of a chunk. -/
def State.chunkWrite (s : State) (c : Core) (comb : Option (BitVec 1)) (a : W64) : List (List Byte) → Except EngStop State
  | [] => .ok s
  | w :: l => do
    let bs ← s.chunkWord c comb a w
    let s' ← s.engWrite c a bs
    s'.chunkWrite c comb (a + 4) l

/-- Writes the words of a chunk whose checks have all passed; none while a line of it cannot be reached. -/
def State.chunkRest (s : State) (comb : Option (BitVec 1)) (a : W64) : List (List Byte) → Option State
  | [] => some s
  | w :: l =>
    match s.window a with
    | .gen _ _ => s.chunkRest comb (a + 4) l
    | _ =>
      let locs := s.locsOf a 4
      let bs : Option (List Byte) := match comb with
        | none => some w
        | some op => match s.readLocs locs .bypass none with
          | .ok old _ => some (toBytes 4 (combWord op (ofBytes old) (ofBytes w)))
          | _ => none
      match bs.map (fun bs => s.writeLocs locs bs .bypass none) with
      | some (.ok _ s') => (s'.dropVisitor locs).chunkRest comb (a + 4) l
      | _ => none

/-- A command ends. -/
def CopyCmd.finish (k : CopyCmd) (status code : Nat) (addr : W64) : CopyCmd := { k with status := some (status, code, addr) }

/-- A byte of the contribution window (17 R370). -/
def contrib (e : Nat × Byte) : Bool := (contribOf (BitVec.ofNat 64 e.1)).isSome
/-- The command has contributed to a reduction. -/
def CopyCmd.contributes (k : CopyCmd) : Bool := k.held.any contrib

/-- A command's access faults: the chunks that are complete count (15 R342). -/
def State.cmdFault (s : State) (n i : Nat) (k : CopyCmd) (code : BitVec 8) (a : W64) : State :=
  s.setCmd n i ({ k with buf := [], put := 0, parked := none }.finish stFault code.toNat a)
/-- A command's access stops. -/
def State.cmdStop (s : State) (n i : Nat) (k : CopyCmd) : EngStop → State
  | .fault code a => s.cmdFault n i k code a
  | .wait _ => s.setCmd n i k
  | .park p a =>
    match s.engPark k.ctx a p with
    | some q => s.setCmd n i { k with parked := some q, at_ := a }
    | none => s.cmdFault n i k cPageFault a

/-- The chunk of a command is complete. -/
def CopyCmd.chunkDone (k : CopyCmd) (held : List (Nat × Byte)) : CopyCmd :=
  let k := { k with held := k.held ++ held, count := k.count + k.buf.length, buf := [], put := 0 }
  if k.count < k.total then k else if k.contributes then { k with waiting := true } else k.finish 0 0 0

/-- A chunk that is read is written (15 R341): all of it where no check of it fails, or its next granule (`ev.ok`). A chunk whose
first granule is written has passed its checks, and faults no more (15 R342): it waits while a line of it cannot be reached. In
a deterministic region, and for a contribution to a reduction, the write is held. -/
def State.chunkPut (s : State) (n i : Nat) (k : CopyCmd) : State :=
  let c := k.core (s.coreAt n)
  let dst := k.chunk.2.1
  let len := k.buf.length
  let held := ((List.range len).map (fun j => (dst + BitVec.ofNat 64 j).toNat)).zip k.buf
  match contribOf dst with
  | some _ => s.setCmd n i (k.chunkDone held)
  | none =>
    let a := dst + BitVec.ofNat 64 k.put
    let e := if s.ev.ok then min len (k.put + (16 - a.toNat % 16)) else len
    if (s.locsOf a (len - k.put)).any s.blockedPlace then s.setCmd n i k
    else if 0 < k.put then
      match s.chunkRest k.comb a (wordsOf ((k.buf.drop k.put).take (e - k.put))) with
      | none => s.setCmd n i k
      | some s' => let k := { k with since := s.time }
        s'.setCmd n i (if e = len then k.chunkDone [] else { k with put := e })
    else match s.chunkWrite c k.comb a (wordsOf (k.buf.drop k.put)) with
    | .error e => s.cmdStop n i k e
    | .ok s' =>
      let k := { k with since := s.time }
      if s.detCtx k.ctx then s.setCmd n i (k.chunkDone held)
      else if e = len then s'.setCmd n i (k.chunkDone [])
      else match s.chunkWrite c k.comb a (wordsOf ((k.buf.drop k.put).take (e - k.put))) with
        | .ok s' => s'.setCmd n i { k with put := e }
        | .error x => s.cmdStop n i k x

/-- A command goes on with its chunk (15 R341): it reads the rest, or one word (`ev.ok`), and once the chunk is read wholly it
writes. -/
def State.copyChunk (s : State) (n i : Nat) : State :=
  match s.cmdAt n i with
  | none => s
  | some k =>
    let (src, _, len) := k.chunk
    if len ≤ k.buf.length then s.chunkPut n i k
    else match s.chunkRead (k.core (s.coreAt n)) k src (if s.ev.ok then 1 else (len - k.buf.length) / 4) k.buf with
      | (bs, some e) => s.cmdStop n i { k with buf := bs } e
      | (bs, none) =>
        let s := { s with links := s.linksAfter (s.locsOf (src + BitVec.ofNat 64 k.buf.length) 4) true }
        let k := { k with buf := bs, since := s.time }
        if s.ev.ok then s.setCmd n i k else s.chunkPut n i k

/-- The held writes of a command that has completed `stop` bytes are made chunk by chunk (12 R284 step 2); one that faults ends
the command there. Contributions to a reduction are made by the switch. -/
def State.commitCopy (s : State) (n stop : Nat) : Nat → CopyCmd → State × CopyCmd
  | 0, k => (s, k)
  | fuel + 1, k =>
    if stop ≤ k.count then (s, k)
    else
      let (_, dst, len) := k.chunk
      if (contribOf dst).isSome then s.commitCopy n stop fuel { k with count := k.count + len }
      else
        let bad (code : BitVec 8) (a : W64) : State × CopyCmd := (s, { k with held := [] }.finish stFault code.toNat a)
        match s.chunkWrite (k.core (s.coreAt n)) k.comb dst (wordsOf ((k.held.take len).map (·.2))) with
        | .ok s' => s'.commitCopy n stop fuel { k with held := k.held.drop len, count := k.count + len }
        | .error (.fault code a) => bad code a
        | .error (.park _ a) => bad cPageFault a
        | .error (.wait _) => (s, k)

/-- The completion of a command (15 R344, R345), once its signal word's line can be reached (07 R181): the signal word, written
without a check of rights (log entry 45), the ticket, the message, and the entry is free. -/
def State.copyDone (s : State) (n i : Nat) : State :=
  match s.cmdAt n i with
  | none => s
  | some k =>
    match k.status with
    | none => s
    | some (st, code, addr) =>
      let count := if st = 0 ∨ st = stFault then k.count else 0
      let sig : Bool := decide (st = 0) && decide (0 < count) && decide (k.siga ≠ 0)
      if sig && s.areaWait [(k.siga, 8)] then s
      else
      let s := if st = 0 ∧ 0 < count ∧ k.siga ≠ 0 then (s.vPut k.siga (toBytes 8 k.sigv)).getD s else s
      let s := s.closeTicket k.handle k.ticket
      let m := hwMsg 4 k.tag k.vint k.weight (s.endpoint n)
        [BitVec.ofNat 64 (st + 256 * code), BitVec.ofNat 64 count, addr, 0, 0, 0] k.ctx
      let s := s.modCore n (fun c => { c with copyq := dropAt c.copyq i })
      { s with net := s.net ++ [{ src := n, dest := .core n, ctx := k.ctx, body := .msg m none }] }

/-! ## The copy words (15 R359) -/

/-- The ticket that an engine command takes at issue (15 R346). -/
def State.engTicket (s : State) (h : BitVec 4) : Option Handle × Option Nat × State :=
  match s.cur.handleOf h with
  | none => (none, none, s)
  | some hd =>
    let (t, s') := (s.ticketed s.ev.core hd.id).nextTicket hd.id
    (some hd, some t, s')

/-- Puts a command into the queue: it waits for an entry, borrows a unit and takes its ticket. -/
def copyIssue (desc : BitVec 1024) (comb : Option (BitVec 1)) (tag : BitVec 8) (h : BitVec 4) (s : State) : Res :=
  if 2 ≤ s.cur.copyq.length then .wait s.endQuantum
  else
    let put (weight : Nat) (s : State) : Res :=
      let (hd, t, s) := s.engTicket h
      let k : CopyCmd := { desc := desc, comb := comb, tag := tag, level := s.cur.pl, ctx := s.cur.ctxid.toNat,
                           vint := s.cur.t.vint, weight := weight, handle := hd, ticket := t, gens := s.cur.t.gens,
                           validated := false, count := 0, status := none, held := [], buf := [], put := 0, waiting := false,
                           parked := none, at_ := 0, since := s.time, order := s.cur.nextTag }
      .ok (s.modCur (fun c => { c with copyq := c.copyq ++ [k], nextTag := c.nextTag + 1 }))
    if s.cur.ctxid = 0 then put 0 s else s.take 1 (fun x s => put x s)

/-- A descriptor of 1,024 bits from registers: one run (15 R359). -/
def copyDesc (src dst : W64) (row : W32) : BitVec 1024 :=
  BitVec.ofNat 1024 (src.toNat + dst.toNat * 2 ^ 64 + row.toNat * 2 ^ 256 + 2 ^ 288)

def execCopy (d a b : BitVec 5) (h : BitVec 4) (s : State) : Host.Outcome State Fault Refusal :=
  runWord (.copy d a b h) s (fun s => s.clearedThen (fun s =>
    copyIssue (copyDesc (s.rs a) (s.rs d) ((s.rs b).extractLsb' 0 32)) none ((s.rs b).extractLsb' 56 8) h s))

/-- `copys` and `copyx`: the descriptor is read by two loads of 64 bytes. -/
def copyWord (i : Instr) (a b : BitVec 5) (h : BitVec 4) (comb : Option (BitVec 1)) (s : State) :
    Host.Outcome State Fault Refusal :=
  runWord i s (fun s =>
    let addr := s.rs a
    s.readyThen addr 128 (fun s =>
      match s.syncLoad addr 64 64 with
      | .stop r => r
      | .ok bs s =>
        match s.syncLoad (addr + 64) 64 64 with
        | .stop r => r
        | .ok bs' s => copyIssue (BitVec.ofNat 1024 (ofBytes (bs ++ bs'))) comb ((s.rs b).extractLsb' 56 8) h s))

def execCopys (a b : BitVec 5) (h : BitVec 4) (s : State) := copyWord (.copys a b h) a b h none s
def execCopyx (a b : BitVec 5) (o : BitVec 1) (h : BitVec 4) (s : State) := copyWord (.copyx a b o h) a b h (some o) s

/-! ## Tile tasks (15 R349-R353, R360) -/

def TileTask.f (t : TileTask) (o n : Nat) : Nat := descAt t.record o n
def TileTask.mode (t : TileTask) : Nat := t.f 0 1
def TileTask.acc (t : TileTask) : Bool := (BitVec.ofNat 8 (t.f 1 1)).getLsbD 0
def TileTask.notify (t : TileTask) : Bool := (BitVec.ofNat 8 (t.f 1 1)).getLsbD 1
def TileTask.osat (t : TileTask) : Bool := (BitVec.ofNat 8 (t.f 1 1)).getLsbD 2
def TileTask.agather (t : TileTask) : Bool := (BitVec.ofNat 8 (t.f 1 1)).getLsbD 3
def TileTask.cout (t : TileTask) : Nat := t.f 2 1
def TileTask.rows (t : TileTask) : Nat := t.f 4 1
def TileTask.cols (t : TileTask) : Nat := t.f 5 1
def TileTask.depth (t : TileTask) : Nat := t.f 6 2
def TileTask.dep0 (t : TileTask) : Nat := t.f 0x48 8
def TileTask.dep1 (t : TileTask) : Nat := t.f 0x50 8

/-- The bits of an element of A and of B by mode (15 Table 15-7). -/
def aBits (mode : Nat) : Nat := if mode = 0 then 16 else if mode = 3 then 4 else if mode = 6 then 64 else 8
def bBits (mode : Nat) : Nat := if mode = 5 then 2 else aBits mode
/-- The size of an output element. -/
def coutSize (cout : Nat) : Nat := if cout = 1 then 2 else if cout = 3 then 8 else 4

/-- The record's fields are in range (15 Tables 15-6, 15-7). -/
def TileTask.ok (t : TileTask) : Bool :=
  let mode := t.mode
  let lim := if mode = 6 then 16 else 64
  let ea := max 1 (aBits mode / 8)
  let eb := max 1 (bBits mode / 8)
  let ec := coutSize t.cout
  decide (mode ≤ 6)
    && (if mode ≤ 3 then decide (t.cout ≤ 1) else if mode ≤ 5 then decide (t.cout = 2) else decide (t.cout = 3))
    && decide (1 ≤ t.rows) && decide (t.rows ≤ lim) && decide (1 ≤ t.cols) && decide (t.cols ≤ lim) && decide (1 ≤ t.depth)
    && (decide (mode ≠ 3) || decide (t.depth % 16 = 0)) && (decide (mode ≠ 5) || decide (t.depth % 4 = 0))
    && decide (t.f 8 8 % ea = 0) && decide (t.f 0x10 8 % eb = 0) && decide (t.f 0x18 8 % ec = 0)
    && decide (t.f 0x20 4 % ea = 0) && decide (t.f 0x24 4 % eb = 0) && decide (t.f 0x28 4 % ec = 0)
    && (!t.agather || decide (t.f 0x30 8 % 4 = 0))

/-- The tasks of a supergroup. -/
def State.tasks (s : State) (sg : Nat) : List TileTask := FMap.getD s.tiles sg []
def State.setTasks (s : State) (sg : Nat) (l : List TileTask) : State := { s with tiles := FMap.put s.tiles sg l }
def State.setTask (s : State) (sg i : Nat) (t : TileTask) : State := s.setTasks sg (setAt (s.tasks sg) i t)

/-- `ttpost` (15 R360). DESIGN CHOICE (log entry 56): the scheduler looks for absent units at the addresses of A, B and C, and ends the
task NOUNIT there; another byte of an operand that names one ends it FAULT with code 0x06. -/
def execTtpost (d a b : BitVec 5) (h : BitVec 4) (s : State) : Host.Outcome State Fault Refusal :=
  runWord (.ttpost d a b h) s (fun s =>
    let addr := s.rs a
    s.readyThen addr 128 (fun s => s.gateThen (fun s =>
      match s.syncLoad addr 64 128 with
      | .stop r => r
      | .ok lo s =>
      match s.syncLoad (addr + 64) 64 64 with
      | .stop r => r
      | .ok hi s =>
        let bs := lo ++ hi
        match s.ctxOf s.cur with
        | none => .ok (s.nowP7 false)
        | some x =>
          let rec_ : BitVec 1024 := BitVec.ofNat 1024 (ofBytes bs)
          let deps := [descAt rec_ 0x48 8, descAt rec_ 0x50 8].filter (· ≠ 0)
          s.areaThen (s.heapArea x :: deps.filterMap (fun f => if x.isCell f then some (f, 32) else none)) (fun s =>
          match deps.find? (fun f => !(x.isCell f && decide (s.futState f ≠ 0))) with
          | some f => futTrap 0 (BitVec.ofNat 64 f)
          | none =>
            let sg := sgOf s.ev.core
            match s.freeCell x with
            | none => .ok (s.nowP7 false).endQuantum
            | some cell =>
              if 256 ≤ (s.tasks sg).length then .ok (s.nowP7 false).endQuantum
              else s.take 1 (fun _ s =>
                let s := ((s.vSet cell 1 fsPending).vSet (cell + 1) 1 1).vSet (cell + 2) 2 (s.homeSlice cell)
                let s := (((s.vSet (cell + 4) 4 1).vSet (cell + 8) 8 0).vSet (cell + 0x10) 8 0).vSet (cell + 0x18) 8 addr.toNat
                let s := deps.foldl State.addRef s
                let earlier := (s.cur.mem.filter (fun e => !e.isJoin)).map (·.tag)
                let (hd, tk, s) := s.engTicket h
                let t0 : TileTask := {
                  record := rec_, ta := (s.rs b).extractLsb' 0 32, tb := (s.rs b).extractLsb' 32 32,
                  poster := s.ev.core, level := s.cur.pl, ctx := s.cur.ctxid.toNat, vint := s.cur.t.vint,
                  cell := BitVec.ofNat 64 cell, handle := hd, ticket := tk, after := earlier, status := .waiting, marked := false,
                  out := none, begun := false, parked := none, at_ := 0, order := s.cur.nextTag, gens := s.cur.t.gens,
                  since := s.time }
                -- the scheduler's checks when it accepts the task
                let t : TileTask :=
                  if (t0.mode = 6 ∧ s.pf64 = false) ∨ [0x08, 0x10, 0x18].any (fun o => s.namesAbsent (BitVec.ofNat 64 (descAt rec_ o 8))) = true then { t0 with status := .done stNoUnit 0 0 0 }
                  else if t0.ok = false then { t0 with status := .done stBadDesc 0 0 0 } else t0
                let s := s.setTasks sg (s.tasks sg ++ [t])
                let s := s.modCur (fun c => { c.setMark d.toNat true with nextTag := c.nextTag + 1 })
                .ok ((s.nowS d (BitVec.ofNat 64 cell)).nowP7 true).endQuantum)))))

/-! ## The press (05 R113; 15 R350, R351) -/

/-- One element from the bytes of a row. -/
def rowElem (bits : Nat) (row : List Byte) (k : Nat) : Nat :=
  if 8 ≤ bits then ofBytes ((row.drop (k * (bits / 8))).take (bits / 8))
  else (row.getD (k * bits / 8) 0).toNat / 2 ^ (k * bits % 8) % 2 ^ bits
/-- The exact value of an operand element. -/
def pressNum (mode : Nat) (x : Nat) : Num :=
  if mode = 0 then decodeFp bf16 x else if mode = 1 then decodeFp e4m3 x else if mode = 2 then decodeFp e5m2 x
  else if mode = 3 then decodeFp e2m1 x else decodeFp fp64 x
/-- A rounding of the press: RNE with ieee overflow. -/
def pressRound (f : Fmt) (x : Num) : Num := decodeFp f (roundTo x f rmRne true 0).bits
/-- The pairwise tree over 2^n terms. -/
def pressTree (f : Fmt) : Nat → List Num → Num
  | 0, l => l.headD (.fin false 0 1)
  | n + 1, l =>
    pressTree f n ((List.range (l.length / 2)).map (fun j =>
      pressRound f (numAdd (l.getD (2 * j) (.fin false 0 1)) (l.getD (2 * j + 1) (.fin false 0 1)) rmRne).x))
/-- PressSum over chunks of 32. -/
def pressSum (f : Fmt) (p : List Num) (acc : Num) : Nat → Nat → Num
  | 0, _ => acc
  | n + 1, c =>
    let t := (List.range 32).map (fun j => p.getD (32 * c + j) (.fin false 0 1))
    pressSum f p (pressRound f (numAdd acc (pressTree f 5 t) rmRne).x) n (c + 1)

/-- An output element of a float mode. `sa` and `sb` give the block scales. -/
def pressFloat (t : TileTask) (ra rb : List Byte) (sa sb : List Byte) (acc0 : Num) : Num :=
  let mode := t.mode
  let f := if mode = 6 then fp64 else fp32
  let p := (List.range t.depth).map (fun k =>
    let x := pressNum mode (rowElem (aBits mode) ra k)
    let y := pressNum mode (rowElem (bBits mode) rb k)
    let x := if mode = 3 then e2m1Scaled (rowElem 4 ra k) (sa.getD (k / 16) 0).toNat else x
    let y := if mode = 3 then e2m1Scaled (rowElem 4 rb k) (sb.getD (k / 16) 0).toNat else y
    pressRound f (numMul x y).x)
  let acc := pressSum f p acc0 ((t.depth + 31) / 32) 0
  if mode = 3 then
    pressRound fp32 (numMul (pressRound fp32 (numMul acc (decodeFp fp32 t.ta.toNat)).x) (decodeFp fp32 t.tb.toNat)).x
  else acc

/-- An element of B in the integer modes. -/
def pressInt (mode : Nat) (row : List Byte) (k : Nat) : Int :=
  if mode = 5 then (let c := rowElem 2 row k; if c = 1 then 1 else if c = 3 then -1 else 0) else sxBits 8 (rowElem 8 row k)
/-- An output element of an integer mode. -/
def pressIntSum (t : TileTask) (ra rb : List Byte) (acc0 : Nat) : Nat :=
  wrapInt 32 ((List.range t.depth).foldl (fun (n : Int) k => n + sxBits 8 (rowElem 8 ra k) * pressInt t.mode rb k)
    (sxBits 32 acc0))

/-- An output element as its bits. -/
def pressElem (t : TileTask) (ra rb sa sb : List Byte) (c : Nat) : Nat :=
  if t.cout = 2 then pressIntSum t ra rb (if t.acc then c else 0)
  else
    let fo := if t.cout = 0 then fp32 else if t.cout = 1 then bf16 else fp64
    let acc0 := if t.acc then decodeFp fo c else .fin false 0 1
    (roundTo (pressFloat t ra rb sa sb acc0) fo rmRne (!t.osat) 0).bits

/-- The bytes of a row of `k` elements. -/
def rowBytes (bits k : Nat) : Nat := (k * bits + 7) / 8
/-- The pieces by which a row is read: one element each, or one byte of packed codes. -/
def rowPieces (bits k : Nat) (a : W64) : List (W64 × Nat) :=
  let e := max 1 (bits / 8)
  (List.range (rowBytes bits k / e)).map (fun i => (a + BitVec.ofNat 64 (e * i), e))

/-- The operands that a task reads (15 R350): the row indexes, the rows of A and their scales, the rows of B and theirs, and
the rows of C. -/
structure Operands where
  a : List (List Byte)
  b : List (List Byte)
  sa : List (List Byte)
  sb : List (List Byte)
  c : List (List Byte)
  deriving DecidableEq, Repr

/-- Reads lists of pieces, one after another. -/
def State.engRows (s : State) (c : Core) : List (List (W64 × Nat)) → Except EngStop (List (List Byte))
  | [] => .ok []
  | r :: l => do
    let bs ← s.engReads c r
    let rs ← s.engRows c l
    return bs :: rs

/-- A task reads the generators as they were when it was posted (log entry 29). -/
def TileTask.core (t : TileTask) (c : Core) : Core := let c := c.as t.level t.ctx
  { c with t := { c.t with gens := t.gens } }

def State.tileOperands (s : State) (t : TileTask) : Except EngStop Operands := do
  let c := t.core (s.coreAt t.poster)
  let mode := t.mode
  let k := t.depth
  let ib ← if t.agather then
      s.engReads c ((List.range t.rows).map (fun m => (BitVec.ofNat 64 (t.f 0x30 8 + 4 * m), 4))) else .ok []
  let idx (m : Nat) : Nat := if t.agather then ofBytes ((ib.drop (4 * m)).take 4) else m
  let none_ (m : Nat) : Bool := t.agather && decide (idx m = 0xFFFF_FFFF)
  let e := coutSize t.cout
  let a ← s.engRows c ((List.range t.rows).map (fun m => if none_ m then [] else
    rowPieces (aBits mode) k (BitVec.ofNat 64 (t.f 8 8 + idx m * t.f 0x20 4))))
  let sa ← s.engRows c ((List.range t.rows).map (fun m => if mode ≠ 3 ∨ none_ m = true then [] else
    rowPieces 8 (k / 16) (BitVec.ofNat 64 (t.f 0x38 8 + idx m * (k / 16)))))
  let sb ← s.engRows c ((List.range t.cols).map (fun n => if mode ≠ 3 then [] else
    rowPieces 8 (k / 16) (BitVec.ofNat 64 (t.f 0x40 8 + n * (k / 16)))))
  let b ← s.engRows c ((List.range t.cols).map (fun n =>
    rowPieces (bBits mode) k (BitVec.ofNat 64 (t.f 0x10 8 + n * t.f 0x24 4))))
  let cc ← s.engRows c ((List.range t.rows).map (fun m => if t.acc then
    (List.range t.cols).map (fun n => (BitVec.ofNat 64 (t.f 0x18 8 + m * t.f 0x28 4 + n * e), e)) else []))
  return { a := a, b := b, sa := sa, sb := sb, c := cc }

/-- The bytes of the tile, row by row and element by element, with their addresses. -/
def tileBytes (t : TileTask) (x : Operands) : List (W64 × List Byte) :=
  let e := coutSize t.cout
  ((List.range t.rows).map (fun m => (List.range t.cols).map (fun n =>
    (BitVec.ofNat 64 (t.f 0x18 8 + m * t.f 0x28 4 + n * e),
      toBytes e (pressElem t (x.a.getD m []) (x.b.getD n []) (x.sa.getD m []) (x.sb.getD n [])
        (ofBytes (((x.c.getD m []).drop (n * e)).take e))))))).flatten
/-- Ternary code 10 met in B (15 R350). -/
def tileCode10 (t : TileTask) (x : Operands) : Nat :=
  if t.mode = 5 then
    x.b.foldl (fun n row => n + ((List.range t.depth).filter (fun k => decide (rowElem 2 row k = 2))).length) 0
  else 0

/-- Writes up to `m` elements in order: what is left, and what stopped it. A write at a quantum end (`now`) waits for no
place. -/
def State.tileWrite (s : State) (c : Core) (now : Bool) : Nat → List (W64 × List Byte) → State × List (W64 × List Byte) × Option EngStop
  | 0, l => (s, l, none)
  | _, [] => (s, [], none)
  | m + 1, (a, bs) :: l =>
    if !now && (s.locsOf a bs.length).any s.blockedPlace then (s, (a, bs) :: l, some (.wait a))
    else match s.engWrite c a bs with
    | .ok s' => s'.tileWrite c now m l
    | .error e => (s, (a, bs) :: l, some e)

/-- The end of a task (15 R352, R353, R360), once the lines that it uses can be reached (07 R181): its future, its dependences, its ticket and its unit. -/
def State.tileFinish (s : State) (sg i : Nat) : State :=
  match (s.tasks sg)[i]? with
  | none => s
  | some t =>
    match t.status with
    | .done st code10 fcode faddr =>
      let cell := t.cell.toNat
      if s.areaWait (((s.ctx? t.ctx).map (fun x => s.wakeAreas x cell)).getD []
          ++ ([t.dep0, t.dep1].filter (· ≠ 0)).map (fun f => (f, 32))) then s
      else
      let s := s.setTasks sg (dropAt (s.tasks sg) i)
      let s := if st = stReclaimed then (s.vSet cell 1 fsReclaimed).settleCell cell
        else s.resolve t.ctx cell (if st = 0 then fsReady else fsFailed) st
      let s := s.dropRefs t.ctx ([t.dep0, t.dep1].filter (· ≠ 0))
      let s := s.closeTicket t.handle t.ticket
      if t.notify then
        let m := hwMsg 5 (BitVec.ofNat 8 (t.f 3 1)) t.vint 1 (s.endpoint t.poster)
          [BitVec.ofNat 64 (st + 256 * fcode), t.cell, BitVec.ofNat 64 code10, faddr, 0, 0] t.ctx
        { s with net := s.net ++ [{ src := t.poster, dest := .core t.poster, ctx := t.ctx, body := .msg m none }] }
      else
        { s with net := s.net ++ [{ src := t.poster, dest := .home t.ctx, ctx := t.ctx, body := .wret t.vint 1 }] }
    | _ => s

/-- A task ends FAULT: the elements before the faulting one are still to be written at a quantum end. -/
def TileTask.fail (t : TileTask) (n : Nat) (code : BitVec 8) (a : W64) : TileTask :=
  { t with parked := none, status := .done stFault n code.toNat a
           out := t.out.map (fun (o : Nat × List (W64 × List Byte)) => (o.1, o.2.takeWhile (fun (e : W64 × List Byte) => decide (e.1 ≠ a)))) }
/-- A task's access stops. -/
def State.taskStop (s : State) (sg i : Nat) (t : TileTask) (n : Nat) : EngStop → State
  | .fault code a => s.setTask sg i (t.fail n code a)
  | .wait _ => s.setTask sg i t
  | .park p a =>
    match s.engPark t.ctx a p with
    | some q => s.setTask sg i { t with parked := some q, at_ := a }
    | none => s.setTask sg i (t.fail n cPageFault a)

/-- The result write of a task on its press (15 R352): all elements that are left, or the next one (`ev.ok`). In a
deterministic region they are tried, and held up to the first that faults (15 R354). -/
def State.tilePut (s : State) (sg i : Nat) (t : TileTask) (n : Nat) (out : List (W64 × List Byte)) : State :=
  let c := t.core (s.coreAt t.poster)
  let on (left : List (W64 × List Byte)) : TileTask := if left.length < out.length then { t with since := s.time } else t
  if s.detCtx t.ctx then
    match s.tileWrite c false out.length out with
    | (_, _, some e) => s.taskStop sg i { t with out := some (n, out) } n e
    | (_, _, none) => s.setTask sg i { t with status := .done 0 n 0 0 }
  else
    match s.tileWrite c false (if s.ev.ok then 1 else out.length) out with
    | (s', left, some e) => s'.taskStop sg i { on left with out := some (n, left), begun := t.begun || decide (left.length < out.length) } n e
    | (s', left, none) => s'.setTask sg i (if left.isEmpty && (!s.ev.ok || out.isEmpty) then { t with status := .done 0 n 0 0 }
        else { on left with out := some (n, left), begun := true })

/-- A press goes on with an issued task (15 R352): it reads the operands and computes, then writes the tile, both at once or one
after the other (`ev.ok`). -/
def State.tileRun (s : State) (sg i : Nat) : State :=
  match (s.tasks sg)[i]? with
  | none => s
  | some t =>
    match t.out with
    | some (n, out) => s.tilePut sg i t n out
    | none =>
      match s.tileOperands t with
      | .error e => s.taskStop sg i t 0 e
      | .ok x =>
        let n := tileCode10 t x
        let out := tileBytes t x
        let t := { t with out := some (n, out), since := s.time }
        if s.ev.ok then s.setTask sg i t else s.tilePut sg i t n out

/-- The access at another device that a task on its press would make next, where it goes no further, with the task's count of code 10:
the operand that it reads next there, or the element that it writes next (07 R168). -/
def State.taskAway (s : State) (t : TileTask) : Option (Nat × W64) :=
  let away (n : Nat) (a : W64) : Option (Nat × W64) := if (s.awayAt (s.locate a)).isSome then some (n, a) else none
  match t.status, t.out with
  | .issued _, none =>
    let cut : State := { s with links := (List.range 18).map (fun i => (i, { FMap.getD s.links i Link.reset with down := true })) }
    (match cut.tileOperands t with | .error (.wait a) => away 0 a | _ => none)
  | .issued _, some (n, (a, _) :: _) => away n a
  | _, _ => none

/-- The held elements of a task are written (12 R284 step 2). -/
def State.commitTile (s : State) (t : TileTask) : State × TileTask :=
  match t.out with
  | none => (s, t)
  | some (n, out) =>
    let bad (s' : State) (code : BitVec 8) (a : W64) : State × TileTask := (s', { t with out := none, status := .done stFault n code.toNat a })
    match s.tileWrite (t.core (s.coreAt t.poster)) true out.length out with
    | (s', _, some (.fault code a)) => bad s' code a
    | (s', _, some (.park _ a)) => bad s' cPageFault a
    | (s', _, _) => (s', { t with out := none })

/-- Every access that the poster made before the task is performed. -/
def State.posterDone (s : State) (t : TileTask) : Bool :=
  !(s.coreAt t.poster).mem.any (fun e => t.after.contains e.tag && !e.performed)
/-- A dependence has failed. -/
def State.depFailed (s : State) (t : TileTask) : Bool :=
  [t.dep0, t.dep1].any (fun f => decide (f ≠ 0) && (decide (s.futState f = fsFailed) || decide (s.futState f = fsReclaimed)))
/-- The conditions of issue (15 R352; 12 R277). -/
def State.tileReady (s : State) (t : TileTask) : Bool :=
  let issued : Nat := (s.tiles.map (fun (e : Nat × List TileTask) => (e.2.filter (fun u => decide (u.ctx = t.ctx)
    && (match u.status with | .issued _ => true | _ => false))).length)).sum
  let cap : Nat := ((s.ctx? t.ctx).map (fun (x : Ctx) => x.rcb.bpress.toNat)).getD 0
  s.posterDone t && [t.dep0, t.dep1].all (fun f => decide (f = 0) || decide (s.futState f = fsReady))
    && s.ticketTurn t.handle t.ticket && (decide (cap = 0) || decide (issued < cap))
/-- The lowest-numbered free press of a supergroup. -/
def State.freePress (s : State) (sg : Nat) : Option Nat :=
  (List.range 4).find? (fun p => !(s.tasks sg).any (fun t => decide (t.status = .issued p)))

/-! ## The cask words (15 R355, R356, R361) -/

/-- The fault of a cask word's mask. -/
def State.caskTrap (s : State) (m : BitVec 2) : Option W64 :=
  if s.hasCask = false then some 1 else if m.getLsbD 1 && !s.die1 then some 0 else none

/-- A context is quiescent or saved. -/
def Ctx.atRest (x : Ctx) : Bool := x.saved || decide (x.H = x.total)

/-- `caskopen` (15 R355). -/
def execCaskopen (m : BitVec 2) (s : State) : Host.Outcome State Fault Refusal :=
  runWord (.caskopen m) s (fun s =>
    match s.caskTrap m with
    | some tval => .trap cUnitAbsent tval
    | none => s.clearedThen (fun s =>
      if s.ctxs.all (fun e => s.cur.authority e.2 && e.2.atRest) then
        .ok ({ s with caskOpen := s.caskOpen ||| m }.nowP7 true)
      else .ok (s.nowP7 false)))

/-- A store to a cask that its die has accepted and not performed. -/
def Access.caskDie (x : Access) (s : State) : Option Nat :=
  if x.isStore && x.cleared && !x.performed then (match s.window x.addr with | .cask die _ => some die | _ => none) else none

/-- `caskseal` (15 R356): writes that come after the request are refused; it waits for the accepted ones. -/
def execCaskseal (m : BitVec 2) (s : State) : Host.Outcome State Fault Refusal :=
  runWord (.caskseal m) s (fun s =>
    match s.caskTrap m with
    | some tval => .trap cUnitAbsent tval
    | none => s.clearedThen (fun s =>
      let all : Nat := match s.cur.txn with | .answered x => x | _ => if s.caskOpen &&& m = m then 1 else 0
      let s := { s with caskOpen := s.caskOpen &&& ~~~m, caskSealing := s.caskSealing ||| (s.caskOpen &&& m) }
      if s.cores.any (fun e => e.2.mem.any (fun x => match x.caskDie s with | some d => m.getLsbD d | none => false)) then
        .wait (s.modCur (fun c => { c with txn := .answered all }))
      else
        .ok ({ s with caskSealing := s.caskSealing &&& ~~~m }.modCur (fun c => { c with txn := .none }) |>.nowP7 (decide (all = 1)))))

/-- A cask of the device is open, or not yet sealed: no context pops or accepts a trigger (15 R355). -/
def State.caskBusy (s : State) : Bool := decide (s.caskOpen ||| s.caskSealing ≠ 0)

end Sys2Proof.Machine
end

