-- ==== Sys2Proof/Machine/System.lean ====
section
/-!
DEFINITION. `idle`, the PLB words, the context words, `errinj` (06 R154-R163), and the words for keys, scrubbing and
assignment (17 R383-R388).
-/
namespace Sys2Proof.Machine

/-! ## idle (06 R154) -/

/-- `idle` sleeps until an asynchronous cause is pending; the core takes the cause before its next slot. -/
def execIdle (s : State) : Host.Outcome State Fault Refusal :=
  runWord .idle s (fun s => s.clearedThen (fun s =>
    if s.cur.asyncPending then .ok (s.modCur (fun c => { c with run := .waking, idleAt := some c.iss.next }))
    else .wait (s.modCur (fun c => { c with run := .asleep }))))

/-- An asynchronous cause is taken between slots (06 R142): PREEMPT first, then the oldest region event. Gathers and scatters with
lanes to perform are held (13 R329). DESIGN CHOICE (log entry 56): the entry of an event of a context that has been released since,
for which the spec names no QUIESCE, is address 0. -/
def State.takeAsync (s : State) (n : Nat) : State :=
  let c := s.coreAt n
  if c.preempt then
    s.modCore n (fun c => { c.holdLanes.takeTrap cPreempt (c.ctxid.setWidth 64) true c.t.pc 0 with preempt := false })
  else match c.events with
    | (code, id) :: rest =>
      let q : W64 := ((s.ctx? id.toNat).map (fun x => x.rcb.quiesce)).getD 0
      s.modCore n (fun c => { c.holdLanes.takeTrap code (id.setWidth 64) true c.t.pc q with events := rest })
    | [] => s.modCore n (fun c => { c with run := .running })

/-! ## plbw and plbinv (06 R155-R157) -/

/-- `plbw` (06 R155). -/
def execPlbw (d a b : BitVec 5) (s : State) : Host.Outcome State Fault Refusal :=
  runWord (.plbw d a b) s (fun s => s.clearedThen (fun s =>
    let base := s.rs a
    let desc := s.rs b
    let pages := desc.extractLsb' 32 32
    if base.extractLsb' 56 8 ≠ 0 ∨ 2 ^ 56 < base.toNat / 8192 * 8192 + pages.toNat * 8192 then .trap cBadAddress base
    else
      let e : PlbEntry := { base := base.extractLsb' 0 56, pages := pages, domain := desc.extractLsb' 16 12,
                            rights := desc.extractLsb' 0 6 }
      let i := (s.rs d).extractLsb' 0 6
      .ok (s.modCur (fun c => { c with plb := c.plb.set i.toNat e i.isLt }))))

/-- The entries that a `plbinv` selects (06 R156). -/
def plbSelects (mode : BitVec 2) (x : W64) (i : Nat) (e : PlbEntry) : Bool :=
  match mode.toNat with
  | 0 => decide (i = (x.extractLsb' 0 6).toNat)
  | 1 => decide (e.domain = x.extractLsb' 0 12)
  | 2 => e.covers e.domain.toNat x
  | _ => true

/-- `plbinv` (06 R156). Only entries that were valid count in s[d] (log entry 52). -/
def execPlbinv (d a : BitVec 5) (m : BitVec 2) (s : State) : Host.Outcome State Fault Refusal :=
  runWord (.plbinv d a m) s (fun s => s.clearedThen (fun s =>
    let x := s.rs a
    let gone (i : Nat) (e : PlbEntry) : Bool := decide (e.pages ≠ 0) && plbSelects m x i e
    let n := ((s.cur.plb.toList.zip (List.range 64)).filter (fun e => gone e.2 e.1)).length
    let s := s.modCur (fun c => { c with plb := Vector.ofFn (fun (i : Fin 64) =>
      if gone i.val c.plb[i] then PlbEntry.reset else c.plb[i]) })
    .ok (s.outS d (BitVec.ofNat 64 n) 1)))

/-! ## Statuses and targets of the context words (06 Table 6-15, 17 R383) -/

abbrev csOk : Nat := 0
abbrev csNotQuiet : Nat := 1
abbrev csNoCtx : Nat := 2
abbrev csNoAuth : Nat := 3
abbrev csAlready : Nat := 4
abbrev csNotStopped : Nat := 5
abbrev csBadBlock : Nat := 6
abbrev csHeld : Nat := 7
abbrev csInUse : Nat := 8
abbrev csKeyLive : Nat := 9
abbrev csBusy : Nat := 10
abbrev csBadRange : Nat := 11
abbrev csNoKey : Nat := 12

/-- A status in s[d]. -/
def State.status (s : State) (d : BitVec 5) (st : Nat) : State := s.nowS d (BitVec.ofNat 64 st)
def State.answer (s : State) (d : BitVec 5) (st : Nat) : Res := .ok (s.status d st)

/-- A context within the issuer's authority: NOCTX, then NOAUTH (06 R158). -/
def State.targetThen (s : State) (d : BitVec 5) (id : Nat) (k : Ctx → Res) : Res :=
  match s.ctx? id with
  | none => s.answer d csNoCtx
  | some x => if s.cur.authority x then k x else s.answer d csNoAuth

/-! ## preempt (06 R158) -/

/-- A yield request, or its withdrawal, leaves for every core of the context. -/
def State.sendYield (s : State) (id : Nat) (x : Ctx) (on : Bool) : State :=
  { s with net := s.net ++ x.cores.map (fun m => { src := x.home, dest := .core m, ctx := id, body := .yreq on }) }
/-- Sets the yield request of a context (06 R145). -/
def State.setYield (s : State) (id : Nat) : State :=
  match s.ctx? id with
  | none => s
  | some x =>
    if x.yreq.isSome then s
    else (s.setCtx id { x with yreq := some s.time, lost := false }).sendYield id x true
/-- The home core of a context in a fault domain sets the yield request of every context of the domain (12 R276). -/
def State.faultDomain (s : State) (id : Nat) : State :=
  match s.ctx? id with
  | some x =>
    if x.rcb.fdom = 0 then s
    else (s.ctxs.filter (fun e => decide (e.2.rcb.fdom = x.rcb.fdom))).foldl (fun (s : State) e => s.setYield e.1) s
  | none => s
/-- Clears it. -/
def State.clearYield (s : State) (id : Nat) : State :=
  match s.ctx? id with
  | none => s
  | some x => (s.setCtx id { x with yreq := none }).sendYield id x false

def execPreempt (d a : BitVec 5) (m : BitVec 1) (s : State) : Host.Outcome State Fault Refusal :=
  runWord (.preempt d a m) s (fun s => s.clearedThen (fun s =>
    let id := ((s.rs a).extractLsb' 0 32).toNat
    s.targetThen d id (fun x =>
      if decide (m = 0) = x.yreq.isSome then s.answer d csAlready
      else if m = 0 then (s.setYield id).answer d csOk else (s.clearYield id).answer d csOk)))

/-! ## Region control blocks (12 R274, Table 12-6) -/

/-- An RCB as its 256 bytes give it. -/
structure RawRcb where
  addr : W64
  parent : W64
  own : W64
  ctxid : W32
  f : Rcb
  deriving DecidableEq, Repr

def RawRcb.parse (addr : W64) (bs : List Byte) : RawRcb :=
  let n (w o k : Nat) : BitVec w := BitVec.ofNat w (fieldAt bs o k)
  { addr := addr, parent := n 64 0 8, own := n 64 8 8, ctxid := n 32 0x10 4
    f := { modef := n 16 0x14 2, prio := n 8 0x16 1, nlog := n 8 0x17 1, fdom := n 16 0x18 2, pdom := n 16 0x1A 2,
           keyslot := n 8 0x1C 1, drawlim := n 8 0x1D 1, qshare := n 16 0x1E 2, quantum := n 32 0x20 4,
           qdeadline := n 32 0x24 4, parklim := n 32 0x28 4, savert := n 64 0x30 8, quiesce := n 64 0x38 8,
           inboxent := n 64 0x40 8, genblk := n 64 0x48 8, fheap := n 64 0x50 8, fheapn := n 32 0x58 4,
           framesz := n 32 0x5C 4, fpool := n 64 0x60 8, fpooln := n 32 0x68 4, spillq := n 32 0x6C 4,
           graph := n 64 0x70 8, place := n 64 0x78 8, cq := (List.range 16).map (fun i => n 32 (0x80 + 4 * i) 4),
           bcores := n 16 0xC0 2, bpress := n 16 0xC2 2, bscr := n 32 0xC4 4, bpages := n 32 0xC8 4,
           govhi := n 32 0xD0 4, govlo := n 32 0xD4 4, govmask := n 16 0xD8 2 } }

/-- The fields of group `g` of the nearest RCB of a chain that owns the group; the last, a root, owns every group. -/
def ownerOf (chain : List RawRcb) (g : Nat) : Rcb :=
  match chain.find? (fun r => r.own.getLsbD g) with
  | some r => r.f
  | none => ((chain.getLast?).map (·.f)).getD (RawRcb.parse 0 []).f

/-- Inheritance resolved; QUANTUM is clamped (Table 12-6). -/
def resolveRcb (chain : List RawRcb) : Rcb :=
  let o := ownerOf chain
  { modef := (o 0).modef, prio := (o 1).prio, nlog := (o 2).nlog, fdom := (o 3).fdom, pdom := (o 3).pdom,
    keyslot := (o 3).keyslot, drawlim := (o 4).drawlim, qshare := (o 4).qshare,
    quantum := BitVec.ofNat 32 (max 64 (min 65536 (o 5).quantum.toNat)), qdeadline := (o 4).qdeadline,
    parklim := (o 4).parklim, savert := (o 6).savert, quiesce := (o 6).quiesce, inboxent := (o 6).inboxent,
    genblk := (o 7).genblk, fheap := (o 8).fheap, fheapn := (o 8).fheapn, framesz := (o 8).framesz, fpool := (o 8).fpool,
    fpooln := (o 8).fpooln, spillq := (o 9).spillq, graph := (o 10).graph, place := (o 11).place, cq := (o 9).cq,
    bcores := (o 12).bcores, bpress := (o 12).bpress, bscr := (o 12).bscr, bpages := (o 12).bpages,
    govhi := (o 13).govhi, govlo := (o 13).govlo, govmask := (o 13).govmask }

/-- Reads a block of `n` lines with the checks of loads; `align` is the alignment of its address. -/
def State.loadBlock (s : State) (a : W64) (align n : Nat) : Except Res (List Byte × State) :=
  match s.accCheck s.cur .load a align with
  | some code => .error (.trap code a)
  | none => s.loadLines a n

/-- Reads an RCB and its ancestors, nearest first, until one names no parent or a parent already read. -/
def State.loadChain (s : State) (a : W64) (seen : List RawRcb) : Nat → Except Res (List RawRcb × State)
  | 0 => .ok (seen, s)
  | fuel + 1 =>
    match s.loadBlock a 256 4 with
    | .error r => .error r
    | .ok (bs, s) =>
      let r := RawRcb.parse a bs
      let l := seen ++ [r]
      if r.parent = 0 ∨ l.any (fun e => decide (e.addr = r.parent)) = true then .ok (l, s)
      else s.loadChain r.parent l fuel

/-- The devices of a placement list, or none where the list breaks R275. -/
def State.loadPlace (s : State) (a : W64) : Except Res (Option (List Nat) × State) :=
  if a = 0 then .ok (some [], s)
  else match s.syncLoad a 8 8 with
    | .stop r => .error r
    | .ok bs s =>
      let n := fieldAt bs 0 4
      if n = 0 ∨ 1024 < n ∨ fieldAt bs 4 4 ≠ 0 then .ok (none, s)
      else
        (List.range n).foldl (fun (acc : Except Res (Option (List Nat) × State)) i =>
          match acc with
          | .error r => .error r
          | .ok (l, s) =>
            match s.syncLoad (a + BitVec.ofNat 64 (8 + 4 * i)) 4 4 with
            | .stop r => .error r
            | .ok bs s =>
              let e := ofBytes bs
              .ok ((if 2 ^ 14 ≤ e then none else l.map (fun l => l ++ [e])), s)) (.ok (some [], s))

/-- The stage that each core is bound to at first (12 R281). -/
def dealStages (r : Rcb) (cores : List Nat) : List (Nat × Nat) :=
  let qs := (List.range 16).filter (fun q => r.govmask.getLsbD q)
  if r.modef.getLsbD 2 = false ∨ qs = [] then []
  else
    let sorted := cores.foldl (fun (l : List Nat) m => l.filter (· < m) ++ [m] ++ l.filter (m < ·)) []
    (sorted.zip (List.range sorted.length)).map (fun e => (e.1, qs.getD (e.2 % qs.length) 0))

/-! ## ctxsave and ctxload (06 R159-R161) -/

/-- The save block (06 Table 6-17). -/
def saveBlock (id : Nat) (x : Ctx) : List Byte :=
  toBytes 4 id ++ toBytes 2 x.vint.toNat ++ toBytes 1 x.rcb.nlog.toNat ++ toBytes 1 1 ++ toBytes 4 x.H
    ++ toBytes 4 x.voidcnt.toNat ++ toBytes 8 x.rcbAddr.toNat ++ toBytes 2 x.home ++ List.replicate 6 0
    ++ ((List.range 16).map (fun i => toBytes 4 (x.rcb.cq.getD i 0).toNat)).flatten
    ++ toBytes 8 x.rcb.fheap.toNat ++ toBytes 8 x.rcb.fpool.toNat ++ toBytes 8 x.freeHead.toNat
    ++ ((List.range 16).map (fun i => toBytes 8 (x.chains.getD i 0).toNat)).flatten ++ List.replicate 8 0

def execCtxsave (d a : BitVec 5) (s : State) : Host.Outcome State Fault Refusal :=
  runWord (.ctxsave d a) s (fun s => s.quietThen (fun s =>
    let addr := s.rs a
    let id := ((s.rs d).extractLsb' 0 32).toNat
    if s.absentUnit addr then .trap cUnitAbsent addr
    else s.targetThen d id (fun x =>
      if x.H ≠ x.total then s.answer d csNotQuiet
      else match s.accCheck s.cur .store addr 256 with
        | some code => .trap code addr
        | none =>
          match s.storeLines addr (saveBlock id x) 4 with
          | .error r => r
          | .ok s => ((s.flushLines addr.toNat 4).modCtx id (fun x => { x with saved := true, block := addr })).answer d csOk)))

def execCtxload (d a : BitVec 5) (s : State) : Host.Outcome State Fault Refusal :=
  runWord (.ctxload d a) s (fun s => s.quietThen (fun s =>
    let addr := s.rs a
    let home := ((s.rs d).extractLsb' 0 12).toNat
    match s.loadBlock addr 256 4 with
    | .error r => r
    | .ok (bs, s) =>
      let id := fieldAt bs 0 4
      if fieldAt bs 7 1 ≠ 1 then s.answer d csBadBlock
      else match s.ctx? id with
      | none => s.answer d csNoAuth
      | some x =>
        if x.saved = false then s.answer d csAlready
        else if x.cores.contains home = false then s.answer d csNoAuth
        else match s.loadChain (BitVec.ofNat 64 (fieldAt bs 0x10 8)) [] (2 ^ 48) with
          | .error r => r
          | .ok (chain, s) =>
            let r := resolveRcb chain
            match s.loadPlace r.place with
            | .error e => e
            | .ok (none, s) => s.answer d csBadRange
            | .ok (some devs, s) =>
              s.areaPark (x.marks.flatMap (fun m => s.markAreas x m.1.toNat m.2.toNat)) (fun s =>
              match s.syncStore (addr + 7) [2] 1 with
              | .stop e => e
              | .ok _ s =>
                let s := s.flushLines addr.toNat 1
                let r : Rcb := { r with
                  nlog := BitVec.ofNat 8 (fieldAt bs 6 1)
                  cq := (List.range 16).map (fun i => BitVec.ofNat 32 (fieldAt bs (0x20 + 4 * i) 4))
                  fheap := BitVec.ofNat 64 (fieldAt bs 0x60 8), fpool := BitVec.ofNat 64 (fieldAt bs 0x68 8) }
                let y : Ctx := { x with
                  rcbAddr := BitVec.ofNat 64 (fieldAt bs 0x10 8), lineage := id :: (chain.drop 1).map (·.ctxid.toNat), rcb := r
                  home := home, seq := 0, H := fieldAt bs 8 4, vint := BitVec.ofNat 16 (fieldAt bs 4 2)
                  voidcnt := BitVec.ofNat 32 (fieldAt bs 0xC 4), saved := false, yreq := none, lost := false, pops := []
                  draws := [], skip := List.replicate 16 0
                  chains := (List.range 16).map (fun i => BitVec.ofNat 64 (fieldAt bs (0x78 + 8 * i) 8))
                  devices := devs, stages := dealStages r x.cores, govAt := s.time, marks := [], rebind := [], committing := false, toCommit := [], engines := false
                  freeHead := BitVec.ofNat 64 (fieldAt bs 0x70 8) }
                let s := s.setCtx id y
                let s := x.cores.foldl (fun (s : State) m =>
                  s.modCore m (fun c => { c with yreq := false, preempt := false, popReq := false })) s
                let s := x.marks.foldl (fun (s : State) m => s.serveMark id m.1.toNat m.2.toNat) s
                .ok (s.nowS d (BitVec.ofNat 64 (id * 2 ^ 32))))))

/-! ## wvint (06 R162) -/

/-- A handler or a save routine of the context is running. -/
def State.someRuns (s : State) (id : Nat) : Bool :=
  s.cores.any (fun e => decide (e.2.ctxid.toNat = id) && decide (e.2.run ≠ .idle))

def execWvint (d : BitVec 5) (s : State) : Host.Outcome State Fault Refusal :=
  runWord (.wvint d) s (fun s => s.clearedThen (fun s =>
    let id := ((s.rs d).extractLsb' 0 32).toNat
    s.targetThen d id (fun x =>
      if x.yreq.isNone || s.someRuns id then s.answer d csNotStopped
      else ((s.setCtx id { x with vint := x.vint + 1, H := x.total }).raiseEvent id cQuiescent).answer d csOk)))

/-! ## errinj (06 R163) -/

/-- The context that a core or an address is assigned to. -/
def State.ownerOfCore (s : State) (n : Nat) : Option Ctx := (s.ctxs.find? (fun e => e.2.cores.contains n)).map (·.2)
def Ctx.ownsPage (x : Ctx) (a : Nat) : Bool :=
  decide (x.pageBase.toNat ≤ a) && decide (a < x.pageBase.toNat + x.npages * 2 ^ 21)
def State.ownerOfAddr (s : State) (a : W64) : Option Ctx :=
  match s.window a with
  | .spad _ dev core _ => if dev = s.devid then s.ownerOfCore core else none
  | .paged => (s.ctxs.find? (fun e => e.2.ownsPage a.toNat)).map (·.2)
  | _ => none

/-- An address of memory that is there: a scratchpad or a cask of the device, or a page that maps to some (06 R163). -/
def State.presentAddr (s : State) (a : W64) : Bool :=
  match s.window a with
  | .spad _ dev _ _ => decide (dev = s.devid)
  | .cask _ _ => true
  | .paged => (FMap.get? s.cache (a.toNat / 64)).isSome || (match s.walk (a.toNat / 64 * 64) with | .ok _ => true | _ => false)
  | _ => false

/-- The memory key of the uncached line of an address. -/
def State.lineKey (s : State) (a : W64) : Option Nat :=
  match s.window (a &&& ~~~(63 : W64)) with
  | .cask die off => some (keyOf spCask (die * 2 ^ 32 + off))
  | .paged => match s.walk (a.toNat / 64 * 64) with | .ok pa => some pa | _ => none
  | _ => none

/-- The 64-byte line of an address becomes uncorrectable (07 R185). -/
def State.poison (s : State) (a : W64) : State :=
  match s.window a with
  | .spad _ dev _ _ =>
    if dev = s.devid then
      let k := s.directKey (s.locate (a &&& ~~~(63 : W64)))
      { s with bad := s.bad ++ ((List.range 16).map (fun i => k + 4 * i)).filter (fun w => !s.bad.contains w) }
    else s
  | .paged | .cask _ _ =>
    match FMap.get? s.cache (a.toNat / 64), s.lineKey a with
    | some l, _ => { s with cache := FMap.put s.cache (a.toNat / 64) { l with bad := BitVec.allOnes 8 } }
    | none, some k => { s with bad := s.bad ++ ((List.range 8).map (fun i => k + 8 * i)).filter (fun w => !s.bad.contains w) }
    | none, none => s
  | _ => s

/-- The line of an address is uncorrectable already. -/
def State.poisonedAt (s : State) (a : W64) : Bool :=
  match s.window a with
  | .spad _ dev _ _ =>
    let k := s.directKey (s.locate (a &&& ~~~(63 : W64)))
    decide (dev = s.devid) && (List.range 16).all (fun i => s.bad.contains (k + 4 * i))
  | .paged | .cask _ _ =>
    match FMap.get? s.cache (a.toNat / 64), s.lineKey a with
    | some l, _ => decide (l.bad = BitVec.allOnes 8)
    | none, some k => (List.range 8).all (fun i => s.bad.contains (k + 8 * i))
    | none, none => false
  | _ => false

def execErrinj (d a : BitVec 5) (k : BitVec 3) (s : State) : Host.Outcome State Fault Refusal :=
  runWord (.errinj d a k) s (fun s => s.clearedThen (fun s =>
    let t := s.rs a
    let n := t.toNat
    let onCore : Bool := decide (k = 0) || decide (k = 1) || decide (k = 4)
    if (if onCore then decide (s.ncores ≤ n) else s.namesAbsent t) then .trap cUnitAbsent t
    else
      let auth : Bool := (onCore || s.presentAddr t) && (decide (s.cur.pl = 2) ||
        (match if onCore then s.ownerOfCore n else s.ownerOfAddr t with
         | some x => s.cur.authority x
         | none => false))
      if auth = false then s.answer d csNoAuth
      else match k.toNat with
        | 0 => if (s.coreAt n).injVanish then s.answer d csAlready
               else (s.modCore n (fun c => { c with injVanish := true })).answer d csOk
        | 1 => if (s.coreAt n).injHold.isSome then s.answer d csAlready
               else (s.modCore n (fun c => { c with injHold := some (s.rs d).toNat })).answer d csOk
        | 2 => if s.poisonedAt t then s.answer d csAlready else (s.poison t).answer d csOk
        | 4 => if (s.coreAt n).injParity then s.answer d csAlready
               else (s.modCore n (fun c => { c with injParity := true })).answer d csOk
        | _ => s.answer d csOk))

/-! ## Keys (17 R384, R385) -/

def State.setKey (s : State) (slot : Nat) (k : Option W512) : State := { s with keys := FMap.put s.keys slot k }

def execKload (d a : BitVec 5) (e : BitVec 6) (s : State) : Host.Outcome State Fault Refusal :=
  runWord (.kload d a e) s (fun s => s.quietThen (fun s =>
    match s.syncLoad (s.rs a) 64 64 with
    | .stop r => r
    | .ok bs s =>
      if (s.keyAt e.toNat).isSome then s.answer d csAlready
      else (s.setKey e.toNat (some (BitVec.ofNat 512 (ofBytes bs)))).answer d csOk))

def execKzero (d : BitVec 5) (e : BitVec 6) (s : State) : Host.Outcome State Fault Refusal :=
  runWord (.kzero d e) s (fun s => s.clearedThen (fun s =>
    let mine : Bool := s.ctxs.any (fun x => x.2.rcb.modef.getLsbD 0 && decide (x.2.rcb.keyslot.toNat = e.toNat)
      && s.cur.authority x.2)
    if s.cur.pl = 1 ∧ mine = false then s.answer d csNoAuth
    else
      let s := { s with cache := s.cache.filter (fun l => decide (s.lineSlot (l.1 * 64) l.2.pa ≠ some e.toNat)) }
      (s.setKey e.toNat none).answer d csOk))

/-- `linkkey` (17 R384, R372): the slot that is not live is loaded, and the marker leaves under the old key. -/
def execLinkkey (d a k : BitVec 5) (s : State) : Host.Outcome State Fault Refusal :=
  runWord (.linkkey d a k) s (fun s => s.quietThen (fun s =>
    match s.syncLoad (s.rs a) 44 64 with
    | .stop r => r
    | .ok bs s =>
      let l := FMap.getD s.links k.toNat Link.reset
      if l.marker then s.answer d csBusy
      else
        let key : BitVec 352 := BitVec.ofNat 352 (ofBytes bs)
        let l := if l.liveB then { l with keyA := some key } else { l with keyB := some key }
        let l : Link := { l with liveB := !l.liveB, marker := true, count := 0, keydue := false, holding := false }
        { s with links := FMap.put s.links k.toNat l }.answer d csOk))

/-! ## scrub (17 R386) -/

/-- The resource of an address in a range: the number of the linear space it lies in (pages, or scratchpads) and its
place there. -/
def State.linear (s : State) (a : W64) : Option (Bool × Nat) :=
  match s.window a with
  | .paged => some (true, a.toNat)
  | .spad 0 dev core off => if dev = s.devid then some (false, core * 2 ^ 16 + off) else none
  | _ => none

/-- The resources of a kind that regions within the issuer's authority have, or had until their release: from, to. -/
def State.myResources (s : State) (page : Bool) : List (Nat × Nat) :=
  let c := s.cur
  (s.ctxs.filter (fun e => c.authority e.2)).foldl (fun l e => l ++
      (if page then [(e.2.pageBase.toNat, e.2.pageBase.toNat + e.2.npages * 2 ^ 21)]
       else e.2.cores.map (fun m => (m * 2 ^ 16, (m + 1) * 2 ^ 16)))) []
    ++ (s.held.filter (fun h => decide (h.page = page) && c.governs h.lineage)).map (fun h =>
      if page then (h.num, h.num + 2 ^ 21) else (h.num * 2 ^ 16, (h.num + 1) * 2 ^ 16))

/-- The ranges cover everything from `x` to `e`. -/
def covered (l : List (Nat × Nat)) (x e : Nat) : Nat → Bool
  | 0 => decide (e ≤ x)
  | fuel + 1 =>
    if e ≤ x then true
    else match l.find? (fun r => decide (r.1 ≤ x) && decide (x < r.2)) with
      | some r => covered l r.2 e fuel
      | none => false

/-- The range of a `scrub` is wholly paged, or wholly own-device fmt-0 scratchpad: its kind and its linear ends. -/
def State.scrubRange (s : State) (a n : W64) : Option (Bool × Nat × Nat) :=
  match s.linear a, s.linear (a + n - 1) with
  | some (p, x), some (p', y) =>
    let al := if p then 8192 else 64
    if p = p' ∧ n ≠ 0 ∧ y + 1 = x + n.toNat ∧ a.toNat % al = 0 ∧ n.toNat % al = 0 then some (p, x, y + 1) else none
  | _, _ => none

/-- The first address of a range that names an absent unit, where an end of the range does. -/
def State.rangeAbsent (s : State) (a n : W64) : Option W64 :=
  if s.absentUnit a then some a
  else if n ≠ 0 ∧ s.absentUnit (a + n - 1) = true then
    (match s.window a with
     | .spad _ _ core off => some (a + BitVec.ofNat 64 ((s.ncores - core) * 2 ^ 16 - off))
     | _ => some (a + n - 1))
  else none

def execScrub (d a b : BitVec 5) (m : BitVec 1) (s : State) : Host.Outcome State Fault Refusal :=
  runWord (.scrub d a b m) s (fun s => s.clearedThen (fun s =>
    let base := s.rs a
    let len := s.rs b
    match s.rangeAbsent base len with
    | some x => .trap cUnitAbsent x
    | none =>
      match s.scrubRange base len with
      | none => s.answer d csBadRange
      | some (page, lo, hi) =>
        let restart : Bool := decide (s.cur.pl = 2) && s.scrubPend.getLsbD 63
          && decide (s.scrubPend.extractLsb' 0 56 = base.extractLsb' 0 56)
          && decide (s.scrubEnd = (base + len).extractLsb' 0 56) && decide (m = 0)
        let l := s.myResources page
        if !restart && !covered l lo hi (l.length + 1) then s.answer d csNoAuth
        else if s.scrubBusy then s.answer d csBusy
        else
          let s := { s with
            scrubPend := 0x8000_0000_0000_0000 ||| base, scrubEnd := (base + len).extractLsb' 0 56
            scrubCur := base.extractLsb' 0 56, scrubBusy := true, scrubErr := false, scrubMode := m
            held := s.held.map (fun (h : HeldRes) => { h with freeable := decide (m = 0) }) }
          s.answer d csOk))

/-! ## assign and release (17 R387, R388) -/

/-- SCRUBPEND covers some of a resource. -/
def State.pendCovers (s : State) (page : Bool) (lo hi : Nat) : Bool :=
  s.scrubPend.getLsbD 63 &&
    (match s.linear (s.scrubPend &&& 0x00FF_FFFF_FFFF_FFFF) with
     | some (p, x) => decide (p = page) && decide (x < hi)
         && decide (lo < x + (s.scrubEnd.toNat - (s.scrubPend.extractLsb' 0 56).toNat))
     | none => false)

/-- The core list: 2-byte entries. -/
def State.loadCores (s : State) (a : W64) : Nat → Except Res (List Nat × State)
  | 0 => .ok ([], s)
  | n + 1 =>
    match s.loadCores a n with
    | .error r => .error r
    | .ok (l, s) => match s.syncLoad (a + BitVec.ofNat 64 (2 * n)) 2 2 with
      | .stop r => .error r
      | .ok bs s => .ok (l ++ [ofBytes bs], s)

/-- The free frames of a pool are chained through their first doublewords (12 R269). -/
def State.chainFrames (s : State) (r : Rcb) : State :=
  (List.range r.fpooln.toNat).foldl (fun (s : State) i =>
    s.vSet (r.fpool.toNat + i * r.framesz.toNat) 8
      (if i + 1 < r.fpooln.toNat then r.fpool.toNat + (i + 1) * r.framesz.toNat else 0)) s

/-- Installs a context (17 R387). -/
def State.install (s : State) (id : Nat) (chain : List RawRcb) (r : Rcb) (cores devs : List Nat) (base : W64) (npages : Nat) :
    State :=
  let x : Ctx := {
    rcbAddr := (chain.head?.map (·.addr)).getD 0, lineage := id :: (chain.drop 1).map (·.ctxid.toNat), rcb := r, cores := cores
    home := cores.headD 0, H := 2 ^ r.nlog.toNat, vint := 1, voidcnt := 0, saved := false, yreq := none, lost := false
    pops := [], draws := [], skip := List.replicate 16 0, chains := List.replicate 16 0, pageBase := base
    npages := npages, devices := devs, seq := 0, stages := dealStages r cores, govAt := s.time, events := [], marks := []
    freeHead := if r.fpooln = 0 then 0 else r.fpool, ended := [], block := 0, rebind := [], committing := false, toCommit := [], engines := false }
  let s := cores.foldl (fun (s : State) m => s.modCore m (fun c =>
    { c.goIdle with ctxid := BitVec.ofNat 32 id, region := BitVec.ofNat 32 id, supv := false, yreq := false, popReq := false })) s
  (s.setCtx id x).chainFrames r

/-- The status of an `assign` whose blocks have been read (17 R387). -/
def State.assignStatus (s : State) (chain : List RawRcb) (r : Rcb) (id : Nat) (listed : Bool) (cores : List Nat)
    (devs : Option (List Nat)) (base : W64) (npages : Nat) : Nat :=
  let auth : Bool := s.cur.governs (chain.map (·.ctxid.toNat))
  let page (i : Nat) : Nat := base.toNat + i * 2 ^ 21
  if auth = false then csNoAuth
  else if r.bcores.toNat < cores.length ∨ r.bpages.toNat < npages ∨ r.bscr.toNat < 64 * cores.length
      ∨ (listed = true ∧ cores = []) ∨ decide (cores.eraseDups = cores) = false
      ∨ cores.any (fun m => decide (s.ncores ≤ m)) = true ∨ devs = none ∨ r.nlog.toNat < 3 ∨ 31 < r.nlog.toNat
      ∨ base.toNat % 2 ^ 21 ≠ 0 ∨ s.lcstate ≠ 2 then csBadRange
  else if id = 0 ∨ (s.ctx? id).isSome = true ∨ cores.any (fun m => (s.ownerOfCore m).isSome) = true
      ∨ s.ctxs.any (fun e => (List.range npages).any (fun i => e.2.ownsPage (page i))) = true then csInUse
  else if cores.any (fun m => s.held.any (fun h => !h.page && decide (h.num = m)) || s.pendCovers false (m * 2 ^ 16) ((m + 1) * 2 ^ 16)) = true
      ∨ (List.range npages).any (fun i => s.held.any (fun h => h.page && decide (h.num = page i))
        || s.pendCovers true (page i) (page (i + 1))) = true ∨ s.rescrub = true then csHeld
  else if r.modef.getLsbD 0 = true ∧ (s.keyAt r.keyslot.toNat).isNone = true then csNoKey
  else csOk

def execAssign (d a b : BitVec 5) (s : State) : Host.Outcome State Fault Refusal :=
  runWord (.assign d a b) s (fun s => s.quietThen (fun s =>
    let rec_ := s.rs b
    match s.loadChain (s.rs a) [] (2 ^ 48) with
    | .error e => e
    | .ok (chain, s) =>
      match s.loadBlock rec_ 64 1 with
      | .error e => e
      | .ok (rs, s) =>
        let ncores := fieldAt rs 2 2
        match (if ncores = 0 then s.loadCores (BitVec.ofNat 64 (fieldAt rs 0x18 8)) (fieldAt rs 0x20 2)
               else .ok ((List.range ncores).map (fun i => fieldAt rs 0 2 + i), s)) with
        | .error e => e
        | .ok (cores, s) =>
          let r := resolveRcb chain
          match s.loadPlace r.place with
          | .error e => e
          | .ok (devs, s) =>
            let id := ((chain.head?.map (fun c => c.ctxid.toNat)).getD 0)
            let base : W64 := BitVec.ofNat 64 (fieldAt rs 8 8)
            let npages := fieldAt rs 0x10 4
            let st := s.assignStatus chain r id (decide (ncores = 0)) cores devs base npages
            if st = csOk then
              s.areaThen ((List.range r.fpooln.toNat).map (fun i => (r.fpool.toNat + i * r.framesz.toNat, 8)))
                (fun s => (s.install id chain r cores (devs.getD []) base npages).answer d csOk)
            else s.answer d st))

/-- Frees the sequencers of a context (08 R202). -/
def State.freeSeqrs (s : State) (id : Nat) : State :=
  let free (q : Seqr) : Seqr :=
    if q.alloc ∧ q.owner = id then { Seqr.reset with gen := if q.gen = 15 then 1 else q.gen + 1 } else q
  { s with seqrs := s.seqrs.map (fun (e : Nat × Seqr) => (e.1, free e.2)) }

/-- The release of a context (17 R388, R380; 18 R389). -/
def State.releaseCtx (s : State) (id : Nat) (x : Ctx) : State :=
  let s := s.queues.foldl (fun (s : State) e =>
    if e.2.live ∧ e.2.owner.toNat = id then s.freeQueue (BitVec.ofNat 20 e.1 ++ e.2.gen) e.2 else s) s
  let s := s.freeSeqrs id
  let lines := (s.cache.filter (fun e => match e.2.l1 with | some m => x.cores.contains m | none => false)).map (·.1)
  let s := lines.foldl (fun (s : State) l => s.evict l) s
  let s := x.cores.foldl (fun (s : State) m =>
    let msgs := (s.coreAt m).inbox
    let s := msgs.foldl (fun (s : State) k => s.dropHnd k) s
    s.modCore m (fun c => { Core.reset with run := .idle, pl := 0, nextTag := c.nextTag })) s
  let cores : List HeldRes := x.cores.map (fun m => { page := false, num := m, lineage := x.lineage, freeable := false })
  let pages : List HeldRes := (List.range x.npages).map (fun i =>
    { page := true, num := x.pageBase.toNat + i * 2 ^ 21, lineage := x.lineage, freeable := false })
  { s with ctxs := FMap.erase s.ctxs id, held := s.held ++ cores ++ pages }

def execRelease (d : BitVec 5) (s : State) : Host.Outcome State Fault Refusal :=
  runWord (.release d) s (fun s => s.clearedThen (fun s =>
    let id := ((s.rs d).extractLsb' 0 32).toNat
    s.targetThen d id (fun x =>
      if !x.saved && !(decide (x.H = x.total) && x.yreq.isSome) then s.answer d csNotQuiet
      else if x.rcb.modef.getLsbD 0 && (s.keyAt x.rcb.keyslot.toNat).isSome then s.answer d csKeyLive
      else if x.saved then
        -- the save block's state byte, written like any store of the word before anything else happens (18 R389)
        s.quietThen (fun s => match s.syncStore (x.block + 7) [0] 1 with
          | .stop r => r
          | .ok _ s => ((s.flushLines x.block.toNat 1).releaseCtx id x).answer d csOk)
      else (s.releaseCtx id x).answer d csOk)))

end Sys2Proof.Machine
end

