-- ==== Sys2Proof/Machine/EventsMem.lean ====
section
/-!
DEFINITION. The steps of the opcode table that happen at a core, at a home or at a walker: traps between slots, results and
replies that arrive, migrations, parks, refresh windows, tickets and soft errors. Each is made at the core or place that
`ev` names; where its condition does not hold it changes nothing (log entry 5).
-/
namespace Sys2Proof.Machine

/-! ## Traps of the issue stage (03 R54, R74) -/

def execIllegalInstruction (s : State) : Host.Outcome State Fault Refusal :=
  let n := s.ev.core
  let c := s.coreAt n
  .next (if s.firmware && c.canIssue then
    (match s.fetch n (c.t.pc &&& ~~~(7 : W64)) with
     | .bundle b s' =>
       let causes := (s'.cordonOf n).filterMap (fun m => ((s'.coreAt m).illegalAt c.t.pc b).map (fun x => (m, x)))
       (match c.illegalAt c.t.pc b with
        | some x => s'.slotTrap n (causes.map (fun e => (e.1, cIllegal, illegalTval e.2.2.2 e.2.1 e.2.2.1))) (wordPc c.t.pc b x.1) (s'.illegalTrap n b x)
        | none => s)
     | _ => s)
    else s)

def execFetchFault (s : State) : Host.Outcome State Fault Refusal :=
  let n := s.ev.core
  .next (if s.firmware && (s.coreAt n).canIssue then (match s.fetchCause n with | some code => s.fetchFail n code | none => s) else s)

/-! ## Traps between slots (06 R142, R144) -/

/-- The word that waits has performed nothing that a cancel would lose (06 R142). -/
def Core.cancellable (c : Core) : Bool :=
  match c.txn with
  | .none | .draw _ | .drawn _ | .asleep _ | .freed | .barrier _ _ _ | .marks _ _ | .waita _ _ => true
  | _ => false

/-- The core at the boundary before its next slot, if it can be there now: a waiting word is cancelled, and every earlier
word has taken its whole effect. A grant on its way is awaited (09 R226), and so is the parked read of the run's descriptors, without
which it has not started (07 R172). -/
def State.atBoundary (s : State) (n : Nat) : Option State :=
  let c := s.coreAt n
  let grant : Bool := s.net.any (fun p => decide (p.dest = .core n) && (match p.body with | .grant _ _ r => decide (r = c.t.run) | _ => false))
  if !c.cancellable || c.gpark.isSome || (grant && (match c.txn with | .draw _ => true | _ => false)) then none
  else
    let s := (s.cancelParked n true).cancel n
    let s := s.modCore n Core.holdLanes
    if (s.coreAt n).uncleared then none else some s

/-- PREEMPT for every member of a cordon at the slot boundary that the leader takes. -/
def State.preemptAll (s : State) (ms : List Nat) : Option State :=
  ms.foldl (fun (s : Option State) m => s.bind (fun s => s.atBoundary m)) (some s)

/-- PREEMPT of core `n` and of its cordon (06 R142, R144). -/
def State.preemptNow (s : State) (n : Nat) : State :=
  let ms := s.cordonOf n
  match s.preemptAll ms with
  | none => s
  | some s =>
    let id := (s.coreAt n).ctxid.setWidth 64
    ms.foldl (fun (s : State) m => s.modCore m (fun c =>
      let c' := c.takeTrap cPreempt id true c.t.pc 0
      { c' with preempt := false, tcause := if ms.length ≤ 1 then c'.tcause else cordTcause c'.tcause 0 })) s

/-- PREEMPT at user level, between slots; in a deterministic region at a quantum end, or before its first slot (12 R284).
During `idle`, a core takes it as it wakes. -/
def execPreemptTrap (s : State) : Host.Outcome State Fault Refusal :=
  let n := s.ev.core
  let c := s.coreAt n
  .next (
    if c.run = .waking then (if c.preempt then s.takeAsync n else s)
    else if c.preempt ∧ c.pl = 0 ∧ c.run = .running ∧ c.leader = none ∧ (s.isDet c = false ∨ c.qcount = 0) then s.preemptNow n
    else s)

/-- QUIESCENT and WEIGHT_LOST reach a region supervisor core during `idle` (06 R139, R140). -/
def execRegionEventTrap (s : State) : Host.Outcome State Fault Refusal :=
  let n := s.ev.core
  let c := s.coreAt n
  .next (if c.run = .waking ∧ c.preempt = false ∧ c.events ≠ [] then s.takeAsync n else s)

/-! ## Packets (01 R14) -/

/-- The kind of a packet: packets of one kind from one source to one target stay in order where they wait, too. -/
def Body.kind (b : Body) : Nat :=
  match b with
  | .msg _ _ | .qask _ _ => 0
  | .start _ _ _ => 1
  | .credit => 2
  | .wret _ _ => 3
  | .draw _ => 4
  | .grant _ _ _ => 5
  | .qans _ _ _ _ => 6
  | .pop | .unpop => 7
  | .migrate _ _ => 8
  | .yreq _ => 9
  | .mark _ _ => 10
  | .unhold _ | .fset _ _ _ | .fref _ | .fdrop _ => 11

/-- The place that a destination is at: a core, a slice, or another device's endpoint. -/
def State.placeOf (s : State) (d : Dest) : Nat × Nat :=
  match d with
  | .core n => (0, n)
  | .home id => (match s.ctx? id with | some x => (0, x.home) | none => (3, id))
  | .queue h => (1, queueKey h / 1024)
  | .remote id => (2, id.toNat)

/-- The packet waits at its target, or has left the device. -/
def Packet.waits (p : Packet) : Bool := p.arrived || p.parked.isSome || (match p.dest with | .remote _ => true | _ => false)

/-- A quantum of the context is being committed. -/
def State.inCommit (s : State) (id : Nat) : Bool := ((s.ctx? id).map (·.committing)).getD false
/-- Steps 1 and 2 of its commit are still to come, before which nothing that they produce is delivered (12 R284). -/
def State.early (s : State) (id : Nat) : Bool :=
  ((s.ctx? id).map (fun x => x.committing && (!x.toCommit.isEmpty || x.engines))).getD false

/-- An earlier packet keeps this one from arriving: one of the same source and target (01 R14), but for one that waits there
and is of another kind; and in a commit every one that was produced before it (12 R284). -/
def State.behind (s : State) (k : Nat) (p : Packet) : Bool :=
  s.early p.ctx || (s.net.take k).any (fun q =>
    (decide (q.src = p.src) && decide (s.placeOf q.dest = s.placeOf p.dest)
      && (!q.waits || (decide (q.dest = p.dest) && decide (q.body.kind = p.body.kind))))
    || (decide (q.ctx = p.ctx) && s.inCommit p.ctx && !q.waits))

/-- The packet that a step concerns: `ev.pick` counts the packets in flight that satisfy a test and are first of their path. -/
def State.packet (s : State) (ok : Packet → Bool) : Option (Nat × Packet) :=
  ((s.net.zip (List.range s.net.length)).filter (fun e => ok e.1 && !s.behind e.2 e.1))[s.ev.pick]?.map (fun e => (e.2, e.1))
def State.dropPacket (s : State) (k : Nat) : State := { s with net := dropAt s.net k }
/-- The packet has reached its target, which cannot take it yet. -/
def State.arriveAt (s : State) (k : Nat) (p : Packet) : State := { s with net := setAt s.net k { p with arrived := true } }

/-- The yield request reaches a core, or its withdrawal (06 R158; 12 R280): a pop request is withdrawn. -/
def execYieldRequestArrival (s : State) : Host.Outcome State Fault Refusal :=
  let n := s.ev.core
  .next (match s.packet (fun p => decide (p.dest = .core n) && (match p.body with | .yreq _ => true | _ => false)) with
    | some (k, { body := .yreq on, ctx := id, .. }) =>
      let s := s.dropPacket k
      let c := s.coreAt n
      if c.ctxid.toNat ≠ id then s
      else
        let s := s.modCore n (fun c => { c with yreq := on, preempt := on && decide (c.run ≠ .idle) })
        if on ∧ c.popReq = true then
          { s.modCore n (fun c => { c with popReq := false }) with
              net := s.net ++ [{ src := n, dest := .home id, ctx := id, body := .unpop }] }
        else s
    | _ => s)

/-! ## Results (04 R84) -/

/-- The divider's result arrives; a value that a later write superseded is gone, its flags are not. -/
def execDivideResult (s : State) : Host.Outcome State Fault Refusal :=
  .next (match (s.coreAt s.ev.core).t.div with
    | some d => if s.cycle < d.due then s else s.modCore s.ev.core (fun c => { c with t := c.t.endDiv })
    | none => s)

/-! ## Accesses (07 R186, R176) -/

/-- The access that a step concerns: place `ev.pick` of the core's list. -/
def State.access (s : State) : Option Access := (s.coreAt s.ev.core).mem[s.ev.pick]?

/-- The access goes to another core's cache or to another device first. -/
def State.isRemote (s : State) (n : Nat) (x : Access) : Bool :=
  (s.otherHome n x.addr).isSome || (match s.window x.addr with | .spad _ dev _ _ => decide (dev ≠ s.devid) | _ => false)
    || (s.lineDev x.addr.toNat).isSome

/-- The operand of a scalar atomic or of `waita`. -/
def Access.operand (x : Access) : W64 := BitVec.ofNat 64 (ofBytes x.data)

/-- A value returns to the core (07 R186), from a scratchpad of the supergroup no sooner than its latency (01 R13). A `waita` that finds its doubleword equal to s[d] sleeps (07 R192). -/
def execMemoryReply (s : State) : Host.Outcome State Fault Refusal :=
  let n := s.ev.core
  let k := s.ev.pick
  .next (match s.access with
    | none => s
    | some x =>
      if x.isStore || x.isJoin then s
      else if x.performed then (if s.cycle < x.due then s else s.complete n k x x.result)
      else if s.isRemote n x then s
      else
        let asleep : Bool := match (s.coreAt n).txn with | .waita t a => a && decide (t = x.tag) | _ => false
        if asleep then s
        else s.tryPerform n k (fun s' x vals =>
          if x.kind = .waita ∧ BitVec.ofNat 64 (ofBytes vals) = x.operand then
            s'.modCore n (fun c => { c with txn := .waita x.tag true })
          else if s.cycle < x.due then
            s'.modCore n (fun c => { c with mem := setAt c.mem k { x with performed := true, result := vals } })
          else s'.complete n k x vals))

/-- The home of a store, or of an atomic, may take it: every earlier word of the thread has cleared (06 R141). -/
def State.mayAccept (s : State) (n k : Nat) : Bool :=
  let c := s.coreAt n
  match c.mem[k]? with
  | none => false
  | some x => !x.cleared && !x.performed && x.parked.isNone && (c.mem.take k).all (fun e => e.cleared) && s.othersSafe n
      && !x.bytes.any s.blockedPlace

/-- Marks an access cleared. -/
def State.clear (s : State) (n k : Nat) : State :=
  s.modCore n (fun c => match c.mem[k]? with
    | some x => { c with mem := setAt c.mem k { x with cleared := true } }
    | none => c)

/-- What a join waits for is performed, and every earlier ticket of its handle (08 R210, R211); what `hfree` leaves can go
once every earlier word has cleared (06 R141). -/
def State.joinDone (s : State) (n k : Nat) (x : Access) : Bool :=
  match x.kind with
  | .unhold _ => ((s.coreAt n).mem.take k).all (fun e => e.cleared)
  | _ => !(s.coreAt n).mem.any (fun a => x.prior.contains a.tag && !a.performed)
    && x.priorTickets.all (fun t => !(FMap.getD s.seqrs t.1 Seqr.reset).opens.contains t.2)
    && s.ticketTurn x.handle x.ticket

/-- What is performed at system scope once a join is (08 R200, R210, R211): what its handle's scope puts before it, and at
that scope of its own the accesses it waited for. -/
def State.joinReach (s : State) (n : Nat) (x : Access) : State :=
  let s := s.reachFor n x
  if x.scope ≠ .sys then s
  else match x.mark with
    | some (id, m) => s.reach (fun w => match w.ticket with | some (i, t) => decide (i = id) && decide (t < m) | none => false)
    | none => s.reach (fun w => decide (w.thread = x.thread n) && w.ticket.isNone && (decide (w.core ≠ n) || decide (w.tag < x.tag)))

/-- A store is accepted, and then performed (07 R186); a join is performed. -/
def execStoreAcknowledge (s : State) : Host.Outcome State Fault Refusal :=
  let n := s.ev.core
  let k := s.ev.pick
  .next (match s.access with
    | none => s
    | some x =>
      if x.isJoin then
        (if s.joinDone n k x then
          (match x.kind with
           | .unhold id => (s.complete n k x []).releaseHandle id
           | _ => (s.joinReach n x).complete n k x [])
         else s)
      else if x.isStore then
        if x.performed then s.complete n k x []
        else if x.cleared then
          (if s.mayPerform n k && !s.isRemote n x then
            (match s.perform n x ((s.coreAt n).mem.take k) with
             | .done _ s' => s'.complete n k x []
             | _ => s)
           else s)
        else if s.mayAccept n k then
          (if (s.regOff? x.addr).isSome then s.clear n k else s.tryIf n k true (fun _ _ _ => s.clear n k))
        else s
      else s)

/-- A remote word access is performed at the line's home core, or at its device (07 R176). -/
def execRemoteAccess (s : State) : Host.Outcome State Fault Refusal :=
  let n := s.ev.core
  let k := s.ev.pick
  .next (match s.access with
    | none => s
    | some x =>
      if x.performed || x.isJoin || !s.isRemote n x || (x.isStore && !x.cleared) then s
      else s.tryPerform n k (fun s' x vals => s'.modCore n (fun c =>
        { c with mem := setAt c.mem k { x with performed := true, result := vals } })))

/-- An atomic that waits at the old home of a line under migration is forwarded once the line has been copied, which the
outside says (07 R184). -/
def execAtomicForward (s : State) : Host.Outcome State Fault Refusal :=
  let n := s.ev.core
  let k := s.ev.pick
  .next (match s.access with
    | none => s
    | some x =>
      let pages := (x.bytes.filter (fun b => decide (spaceOf b = spVirt))).map (fun b => offOf b / 8192)
      if x.isAtomic && s.ev.ok && pages.any (fun p => s.moving.contains p) then
        let s0 := { s with moving := s.moving.filter (fun p => !pages.contains p) }
        (if s0.mayPerform n k then
          (match s.perform n x ((s.coreAt n).mem.take k) with
           | .done vals s' => s'.complete n k x vals
           | .wait => s
           | .park p => s.parkAccess n k x p
           | .fault code tval => s.lateFault n k code tval)
         else s)
      else s)

/-- An atomic at another device ends INDETERMINATE: s[d] is unchanged, p7 is 0 and TVAL is 1 (07 R190). -/
def State.indeterminate (s : State) (n k : Nat) (x : Access) : State :=
  ((s.modCore n (fun c => { c with mem := dropAt c.mem k, tval := 1 })).closeTicket x.handle x.ticket).modCore n (fun c =>
    (c.arriveAll x.tag (x.operand.setWidth 512)).arriveAll (x.tag + 1) 0)

/-- The gateway retransmits an atomic that has been sent, after 20 µs without a reply (07 R190): `ev.ok` says that the target's replay cache still holds its entry, and a
`ev.val` that is not 0 that this transmission is lost too. -/
def execAtomicRetransmit (s : State) : Host.Outcome State Fault Refusal :=
  let n := s.ev.core
  let k := s.ev.pick
  .next (match s.access with
    | none => s
    | some x =>
      let away : Bool := (match s.window x.addr with | .spad _ dev _ _ => decide (dev ≠ s.devid) | _ => false)
        || (s.lineDev x.addr.toNat).isSome
      match x.kind with
      | .atomic _ =>
        if away = false ∨ s.time < x.since + 20000 ∨ (s.mayPerform n k = false ∧ x.performed = false) then s
        else if s.ev.val ≠ 0 then
          (if 2 ≤ x.losses then s.indeterminate n k x
           else s.modCore n (fun c => { c with mem := setAt c.mem k { x with losses := x.losses + 1, since := s.time } }))
        else if x.performed ∧ s.ev.ok = true then s.complete n k x x.result
        else s.indeterminate n k x
      | _ => s)

/-! ## Migrations (07 R177) -/

/-- A core may take a thread of a context: it is idle in it. -/
def State.idleCore (s : State) (m : Nat) (ctx : Nat) : Bool :=
  decide ((s.coreAt m).run = .idle) && decide ((s.coreAt m).ctxid.toNat = ctx)

/-- The register-context message arrives, and the thread goes on at user level with nominal slot time 0. -/
def execMigrationArrival (s : State) : Host.Outcome State Fault Refusal :=
  let n := s.ev.core
  .next (match s.packet (fun p => decide (p.dest = .core n) && (match p.body with | .migrate _ _ => true | _ => false)) with
    | some (k, { body := .migrate t status, ctx := id, dest := dest, src := src, .. }) =>
      (match s.ctx? id with
       | some x =>
         if s.idleCore n id = false then s.arriveAt k { src := src, dest := dest, ctx := id, body := .migrate t status }
         else
           let t := match status with
             | some d => t.setFile .s d 0
             | none => t
           (s.dropPacket k).modCore n (fun c => { c with
             t := { t with nom := 0 }, pl := 0, tvec := x.rcb.savert &&& 0x00FF_FFFF_FFFF_FFF8, run := .running, slot := .done,
             txn := .none, marked := false, preempt := c.yreq })
       | none => s.dropPacket k)
    | _ => s)

/-- A reply to a run is on its way to core `n`: a grant, or the answer to its `qenq` (07 R177, 09 R227). -/
def State.owed (s : State) (n run : Nat) : Bool :=
  s.net.any (fun p => decide (p.dest = .core n) && (match p.body with
    | .grant _ _ r => decide (r = run) | .qans _ _ _ r => decide (r = run) | _ => false))

/-- A forwarding entry ends after 4 µs, and once no reply that it covers is outstanding. -/
def execForwardEntryExpire (s : State) : Host.Outcome State Fault Refusal :=
  .next (s.modCore s.ev.core (fun c => match c.fwd[s.ev.pick]? with
    | some (_, e, run) => if e ≤ s.time ∧ s.owed s.ev.core run = false then { c with fwd := dropAt c.fwd s.ev.pick } else c
    | none => c))

/-! ## Parks (07 R181) -/

/-- A park on an entry of this line ends where a write has set V in the line since. -/
def State.unpark (s : State) (line : Nat) (p : Option (Nat × Nat)) : Option (Nat × Nat) :=
  match p with
  | some (k, t) => if parkLine k = line ∧ s.wakes k = true then none else some (k, t)
  | none => none

/-- Everything that is parked on a line whose V bits a write has set walks again. -/
def State.wakeLine (s : State) (line : Nat) : State :=
  let go (was : Option (Nat × Nat)) (since : Nat) : Nat := if was ≠ none ∧ s.unpark line was = none then s.time else since
  let core (c : Core) : Core := { c with
    mem := c.mem.map (fun (a : Access) => { a with parked := s.unpark line a.parked, since := go a.parked a.since })
    fpark := (match c.fpark with
      | some (k, t, a) => if parkLine k = line ∧ s.wakes k = true then none else some (k, t, a)
      | none => none)
    copyq := c.copyq.map (fun (q : CopyCmd) => { q with parked := s.unpark line q.parked, since := go q.parked q.since })
    t := { c.t with streams := c.t.streams.map (fun q =>
      q.map (fun (q : Stream) => { q with parked := s.unpark line q.parked, since := go q.parked q.since })) } }
  { s with
    cores := s.cores.map (fun (e : Nat × Core) => (e.1, core e.2))
    tiles := s.tiles.map (fun (e : Nat × List TileTask) =>
      (e.1, e.2.map (fun (t : TileTask) => { t with parked := s.unpark line t.parked, since := go t.parked t.since })))
    net := s.net.map (fun (p : Packet) => { p with parked := s.unpark line p.parked }) }

/-- A write has set V in the monitored line that holds the entry with the key `ev.val` (above 2⁶⁴, `ev.pick`). -/
def execParkWake (s : State) : Host.Outcome State Fault Refusal :=
  .next (s.wakeLine (s.ev.val.toNat / 64 + (s.ev.pick * 2 ^ 64) / 64))

/-- The park limit of a context has passed since a time. -/
def State.pastLimit (s : State) (ctx : Nat) (since : Nat) : Bool :=
  match s.ctx? ctx with
  | some x => decide (since + x.rcb.parklim.toNat ≤ s.time)
  | none => true

/-- A word that waits for an access of its own, or a fetch, takes a trap: precisely, with its whole cordon. -/
def State.wordTrap (s : State) (n : Nat) (code : BitVec 8) (a : W64) : State :=
  let ms := s.cordonOf n
  if ms.any (fun m => (s.coreAt m).uncleared) then s
  else
    let s := s.modCore n (fun c => { c with fpark := none })
    let pc := (s.coreAt n).t.pc
    if ms.length ≤ 1 ∨ (s.coreAt n).pl ≠ 0 then s.modCore n (fun c => c.takeTrap code a false pc 0)
    else s.cordonTrap ms [(n, code, a)] pc

/-- The refusal of a queue message, which becomes a NACK, or an answer to `qenq` (09 R221, R233). -/
def nackOf (m : Msg) (reason : Nat) (src : W32) : Msg :=
  { m with kf := (m.kf &&& 0xFF80) ||| BitVec.ofNat 16 (reason * 16 + 6), src := src }
def State.refuse (s : State) (from_ : Nat) (p : Packet) (m : Msg) (member : Option Nat) (reason : Nat) (src : W32) : State :=
  { s with net := s.net ++ [{ src := from_, dest := .core p.src, ctx := p.ctx, body := .msg (nackOf m reason src) member }] }

/-- A member of a multicast has been accepted or refused; its weight comes back in the completion (09 R245). -/
def State.answerMember (s : State) (n code : Nat) (ok : Bool) : State :=
  s.modCore n (fun c => { c with mcsts := c.mcsts.map (fun (r : Mcst) =>
    if r.id = code / 64 then
      { r with answered := r.answered + 1, failed := if ok then r.failed else r.failed ||| ((1 : BitVec 64) <<< (code % 64)) }
    else r) })

/-- A refused message: a member of a multicast is counted and its handle given up, a NACK is discarded, and any other comes
back as a NACK (09 R221, R245). -/
def State.refuseMsg (s : State) (at_ : Nat) (p : Packet) (m : Msg) (member : Option Nat) (reason : Nat) (src : W32) : State :=
  match member with
  | some code => (s.dropHnd m).answerMember p.src code false
  | none =>
    if m.kind = 6 then s.dropHnd m
    else if p.src < 4096 then s.refuse at_ p m none reason src
    else { s with net := s.net ++ [{ src := at_, dest := .remote m.src, ctx := p.ctx, body := .msg (nackOf m reason src) none }] }

/-- The refusal of a message for a slice queue: NACK, the answer of `qenq`, or a failed member. -/
def State.refuseItem (s : State) (p : Packet) (h : W32) (reason : Nat) : State :=
  let slice := 8192 + queueKey h / 1024
  match p.body with
  | .msg m member => s.refuseMsg slice p m member reason h
  | .qask m run =>
    let s := s.dropHnd m
    { s with net := s.net ++ [{ src := slice, dest := .core p.src, ctx := p.ctx, body := .qans reason m.weight.toNat m.vint run }] }
  | _ => s

/-- A park that outlasts the region's limit ends in PAGE_FAULT. `ev.val` says what is parked: 0 an access, 1 the core's
fetch or word, 2 a stream, 3 a copy command, 4 a tile task of the core's supergroup, 5 a message at a slice; `ev.pick` which. -/
def execParkTimeout (s : State) : Host.Outcome State Fault Refusal :=
  let n := s.ev.core
  let c := s.coreAt n
  let k := s.ev.pick
  .next (match s.ev.val.toNat with
    | 0 => (match c.mem[k]? with
      | some x => (match x.parked with
        | some (_, t) => if s.pastLimit c.ctxid.toNat t then s.lateFault n k cPageFault x.addr else s
        | none => s)
      | none => s)
    | 1 => (match c.fpark with
      | some (_, t, a) => if s.pastLimit c.ctxid.toNat t then s.wordTrap n cPageFault a else s
      | none => s)
    | 2 => (match c.streamOf (28 + k) with
      | some q => (match q.parked with
        | some (_, t) => if s.pastLimit c.ctxid.toNat t then
            s.modCore n (fun c => c.setStream (28 + k) (some { q with
              parked := none, fetched := q.fetched ++ [{ bytes := [], trap := some cPageFault }] })) else s
        | none => s)
      | none => s)
    | 3 => (match s.cmdAt n k with
      | some q => (match q.parked with
        | some (_, t) => if s.pastLimit q.ctx t then s.cmdFault n k q cPageFault q.at_ else s
        | none => s)
      | none => s)
    | 4 => (match (s.tasks (sgOf n))[k]? with
      | some q => (match q.parked with
        | some (_, t) => if s.pastLimit q.ctx t then
            s.setTask (sgOf n) k (q.fail ((q.out.map (·.1)).getD 0) cPageFault q.at_) else s
        | none => s)
      | none => s)
    | 5 => (match s.net[k]? with
      | some p => (match p.parked, p.dest with
        | some (_, t), .queue h =>
          let owner := ((s.queueOf h).map (fun q => q.owner.toNat)).getD 0
          if s.pastLimit owner t then (s.dropPacket k).refuseItem p h 2 else s
        | _, _ => s)
      | none => s)
    | _ => s)

/-! ## waita, the cask and tickets -/

/-- A write to the monitored doubleword wakes a `waita` (07 R192). In a deterministic region it compares again only at a
quantum end. -/
def execWaitaWake (s : State) : Host.Outcome State Fault Refusal :=
  let n := s.ev.core
  .next (if s.isDet (s.coreAt n) then s
    else s.modCore n (fun c => match c.txn with | .waita t true => { c with txn := .waita t false } | _ => c))

/-- Bank group `ev.pick` enters its window: die × 32 + group. -/
def execCaskRefreshStart (s : State) : Host.Outcome State Fault Refusal :=
  let b := s.ev.pick
  let die := b / 32
  .next (if s.hasCask ∧ (die = 0 ∨ (die = 1 ∧ s.die1 = true)) ∧ s.inRefresh die (b % 32) = true ∧ s.refresh.contains b = false then
    { s with refresh := s.refresh ++ [b] } else s)
/-- Bank group `ev.pick` leaves it. -/
def execCaskRefreshEnd (s : State) : Host.Outcome State Fault Refusal :=
  let b := s.ev.pick
  .next (if s.inRefresh (b / 32) (b % 32) then s else { s with refresh := s.refresh.filter (· ≠ b) })

/-- The sequencer gives a ticket to an arriving request (08 R200); requests of one thread arrive in issue order. A sequencer
of a device that does not answer gives none: BAD_ADDRESS, with the address of the access, or for a join mark the handle (08
Table 8-12). -/
def execHandleTicket (s : State) : Host.Outcome State Fault Refusal :=
  let n := s.ev.core
  let k := s.ev.pick
  .next (match s.access with
    | none => s
    | some x =>
      match x.handle with
      | none => s
      | some h =>
        if x.ticket.isSome || (match x.kind with | .unhold _ => true | _ => false) || ((s.coreAt n).mem.take k).any (fun e => e.ticket.isNone && decide (e.handle.map (·.id) = some h.id)) then s
        else if (h.id.extractLsb' 18 14).toNat ≠ s.devid ∧ s.ev.ok = false then s.lateFault n k cBadAddress x.addr
        else
          let (t, s) := s.nextTicket h.id
          s.modCore n (fun c => { c with mem := setAt c.mem k { x with ticket := some t, cleared := x.cleared || x.isJoin } }))

/-! ## Soft errors (07 R185) -/

/-- One ECC word becomes uncorrectable: 4 bytes of a scratchpad, 8 elsewhere. -/
def State.spoil (s : State) (a : W64) : State :=
  match s.window a with
  | .spad _ dev _ _ =>
    if dev = s.devid then
      let k := s.directKey (s.locate (a &&& ~~~(3 : W64)))
      if s.bad.contains k then s else { s with bad := s.bad ++ [k] }
    else s
  | .paged | .cask _ _ =>
    let b := a.toNat / 64 * 64
    let i := a.toNat % 64 / 8
    match s.look b with
    | .line l cached =>
      if cached then { s with cache := FMap.put s.cache (b / 64) { l with bad := l.bad ||| ((1 : BitVec 8) <<< i) } }
      else if s.bad.contains (l.pa + 8 * i) then s else { s with bad := s.bad ++ [l.pa + 8 * i] }
    | _ => s
  | _ => s

/-- The word at the address `ev.val` takes an error: a correctable one (`ev.ok`) is corrected without any effect. -/
def execSoftError (s : State) : Host.Outcome State Fault Refusal :=
  .next (if s.ev.ok then s else s.spoil s.ev.val)

end Sys2Proof.Machine
end

