-- ==== Sys2Proof/Machine/EventsMsg.lean ====
section
/-!
DEFINITION. The steps of the opcode table that carry messages, weight, run-queue entries and reclamations between cores,
slices and home cores (06 R163; 09 R221-R231, R233, R245; 12 R267, R273, R278-R284; 17 R368). A step concerns the packet
that `ev.pick` counts; a context is named by `ev.val` where it has no packet. Where its condition does not hold it changes
nothing (log entry 5).
-/
namespace Sys2Proof.Machine

/-! ## Acceptance (09 R221, R222) -/

/-- The agent that stands for every other device. -/
def otherDevice : Nat := 16384

/-- The acceptance, or the discarding, of a message goes back to its sender (09 R222). Messages from hardware hold no
credit. -/
def State.credit (s : State) (at_ : Nat) (p : Packet) : State :=
  match p.body with
  | .msg _ (some code) => s.answerMember p.src code true
  | .msg m none =>
    if p.src < 4096 ∧ 1 ≤ m.kind ∧ m.kind ≤ 3 then
      { s with net := s.net ++ [{ src := at_, dest := .core p.src, ctx := p.ctx, body := .credit }] }
    else s
  | .start _ _ _ => { s with net := s.net ++ [{ src := at_, dest := .core p.src, ctx := p.ctx, body := .credit }] }
  | _ => s
/-- The oldest entry of an idle core has to be spilled (09 R223). -/
def State.mustSpill (s : State) (n : Nat) : Option Msg :=
  let c := s.coreAt n
  match c.inbox with
  | m :: _ =>
    if c.run = .idle ∧ c.ctxid ≠ 0 ∧ (m.kind ≠ 2 ∨ c.yreq = true ∨ ((s.ctxOf c).map (·.saved)).getD false = true) then some m
    else none
  | [] => none

/-- The spill queue can take no entry (09 R225). -/
def State.spillFull (s : State) (c : Core) : Bool :=
  match s.spillOf c with
  | some (_, q) => q.full
  | none => true

/-- A message reaches the inbox of core `n`. -/
def State.acceptAt (s : State) (n : Nat) (p : Packet) (m : Msg) (member : Option Nat) : Option State :=
  let c := s.coreAt n
  if p.ctx ≠ 0 ∧ (s.ctx? p.ctx).isNone = true then some ((s.dropHnd m).credit n p)
  else if m.kind ≠ 6 ∧ 1 ≤ m.kind ∧ m.kind ≤ 3 ∧ c.ctxid.toNat ≠ p.ctx then
    some (s.refuseMsg n p m member 3 (s.endpoint n))
  else if s.fresh m = false then
    let s := (s.discard m).credit n p
    some (if m.kind = 6 then s.modCore n (fun c => { c with credits := c.credits + 1 }) else s)
  else if 32 ≤ c.inbox.length ∨ ((s.mustSpill n).isSome && s.spillFull c) = true then none
  else
    let s := s.modCore n (fun c => { c with inbox := c.inbox ++ [m], credits := if m.kind = 6 then c.credits + 1 else c.credits })
    some (s.credit n p)

/-- A NACK of another device answers the message of core `n` that it names: the message is no longer on its way (09 R221). -/
def State.nacked (s : State) (n : Nat) (m : Msg) : State :=
  match findAt (fun (p : Packet) => decide (p.src = n) && (match p.dest, p.body with
      | .remote id, .msg o _ | .remote id, .start o _ _ => decide (o.payload = m.payload) && decide (o.weight = m.weight)
          && decide (id.extractLsb' 18 14 = m.src.extractLsb' 18 14)
      | _, _ => false)) s.net 0 with
  | some (k, _) => s.dropPacket k
  | none => s

/-- A message arrives at a core: accepted, refused, discarded for its vintage or its context, or kept waiting by a full
inbox. Bytes in `ev.data` are a message of another device, of the context `ev.val`. -/
def execMessageAccept (s : State) : Host.Outcome State Fault Refusal :=
  let n := s.ev.core
  .next (
    if s.ev.data.length = 64 then
      let id := s.ev.val.toNat
      let m := Msg.ofBytes s.ev.data id
      ((if m.kind = 6 then s.nacked n m else s).acceptAt n { src := otherDevice, dest := .core n, ctx := id, body := .msg m none } m none).getD s
    else match s.packet (fun p => decide (p.dest = .core n) && (match p.body with | .msg _ _ => true | _ => false)) with
    | some (k, p) => (match p.body with
      | .msg m member => ((s.dropPacket k).acceptAt n p m member).getD (s.arriveAt k p)
      | _ => s)
    | none => s)

/-- The device of an endpoint identifier (09 R219). -/
def devOf (id : W32) : Nat := (id.extractLsb' 18 14).toNat

/-- An acceptance, or the answer to `qenq`, reaches the sender (09 R222, R244). Where `ev.ok`, another device has accepted the
message or START that `ev.pick` counts. -/
def execSendCreditReturn (s : State) : Host.Outcome State Fault Refusal :=
  let n := s.ev.core
  .next (
   if s.ev.ok then
     (match s.packet (fun p => decide (p.src = n) && (match p.dest, p.body with
         | .remote id, .msg _ _ | .remote id, .start _ _ _ => s.linkOpen (devOf id) | _, _ => false)) with
      | some (k, p) =>
        let s' := (s.dropPacket k).credit otherDevice p
        (match p.dest with | .remote id => s'.cross (devOf id) | _ => s')
      | none => s)
   else match s.packet (fun p => decide (p.dest = .core n) && (match p.body with | .credit | .qans _ _ _ _ => true | _ => false)) with
    | some (k, p) =>
      let s := (s.dropPacket k).modCore n (fun c => { c with credits := min 16 (c.credits + 1) })
      (match p.body with
       | .qans st units vint run =>
         let s := s.modCore n (fun c => { c with txn := if c.txn = .qenq ∧ c.t.run = run then .answered st else c.txn })
         if units = 0 then s else s.giveUnits n p.ctx vint units run
       | _ => s)
    | none => s)

/-! ## Slice queues (09 R233-R235, R254) -/

/-- The destination that a sleeping `qdeq` names can hold the entry (12 R266). -/
def Core.sleeperFits (c : Core) (m : Msg) : Bool :=
  match rowOf c.iss.insn with
  | some (.qdeq d _ _) => entryFits d m
  | _ => true

/-- The sleepers of a queue wake in the order in which they slept, and each takes the oldest entry; one whose word cannot hold
it takes its trap and leaves it (09 R235, 12 R266). -/
def State.wakeSleepers (s : State) (h : W32) : Nat → State
  | 0 => s
  | fuel + 1 =>
    match s.queueOf h with
    | some q => (match q.sleepers with
      | n :: rest =>
        if q.count = 0 then s
        else
          let m := s.ringHead q
          let q := { q with sleepers := rest, head := if (s.coreAt n).sleeperFits m then q.head + 1 else q.head }
          State.wakeSleepers ((s.setQueue h q).modCore n (fun c => { c with txn := .item m })) h fuel
      | [] => s)
    | none => s

/-- An entry is accepted by a live queue with room: it is written to the ring, and fires the watches; then sleepers take theirs
(09 R233, R235, R254). None where the ring cannot be written. -/
def State.acceptItem (s : State) (h : W32) (q : Queue) (m : Msg) : Option State :=
  (s.ringPush h { q with watch := [] } m.bytes).map (fun s =>
    (s.fireWatches h q.watch 0 (q.count + 1)).wakeSleepers h q.sleepers.length)

/-- The ring entry that comes next lies on a page that is not mapped: where its write parks, while its walker has a free
monitor (07 R181). -/
def State.ringParks (s : State) (q : Queue) : Option (Nat × Nat) :=
  let a := q.entry q.tail
  match s.window (BitVec.ofNat 64 a) with
  | .paged => (match s.look a with
    | .invalid p => if 256 ≤ s.monitors (s.homeSlice a) then none else some (s.parkKey p (s.homeSlice a), s.time)
    | _ => none)
  | _ => none

/-- A sender may act on a queue, by the level and the region it had as it sent (09 R234). -/
def State.senderMay (s : State) (p : Packet) (q : Queue) : Bool :=
  decide (p.ctx = q.owner.toNat)
    || s.mayUse { Core.reset with pl := 0, ctxid := BitVec.ofNat 32 p.ctx } q
    || (decide (p.level ≠ 0) && s.mayUse { Core.reset with pl := p.level, region := p.region } q)

/-- An entry reaches a slice. -/
def State.itemAt (s : State) (k : Nat) (p : Packet) (h : W32) (m : Msg) : State :=
  let slice := 8192 + queueKey h / 1024
  if p.ctx ≠ 0 ∧ (s.ctx? p.ctx).isNone = true then ((s.dropPacket k).dropHnd m).credit slice p
  else match s.queueOf h with
    | none => (s.dropPacket k).refuseItem p h 2
    | some q =>
      if s.isRunQueue h || !s.senderMay p q then (s.dropPacket k).refuseItem p h 3
      else if q.full then (s.dropPacket k).refuseItem p h 1
      else match s.ringParks q with
        | some park => { s with net := setAt s.net k { p with parked := some park } }
        | none =>
          match (s.dropPacket k).acceptItem h q m with
          | none => (s.dropPacket k).refuseItem p h 2
          | some s =>
            let back : List Packet :=
              if m.weight = 0 then []
              else [{ src := slice, dest := .home p.ctx, ctx := p.ctx, body := .wret m.vint m.weight.toNat }]
            let ans : List Packet := match p.body with
              | .qask _ run => [{ src := slice, dest := .core p.src, ctx := p.ctx, body := .qans 0 0 m.vint run }]
              | _ => []
            { s with net := s.net ++ back ++ ans }.credit slice p

/-- A slice accepts or refuses an ITEM; its write to an unmapped ring parks. -/
def execSliceQueueAccept (s : State) : Host.Outcome State Fault Refusal :=
  .next (match s.packet (fun p => p.parked.isNone && (match p.dest with | .queue _ => true | _ => false)) with
    | some (k, p) => (match p.dest, p.body with
      | .queue h, .msg m _ => s.itemAt k p h m
      | .queue h, .qask m _ => s.itemAt k p h m
      | _, _ => s)
    | none => s)

/-! ## The inbox of an idle core (09 R223-R225) -/

/-- The oldest entry is written to the spill queue, and its weight is home with it (09 R224, 11 R261). One whose ring entry
cannot be written stays, as for a full spill queue (log entry 52). -/
def State.spill (s : State) (n : Nat) : State :=
  match s.mustSpill n with
  | none => s
  | some m =>
    match s.spillOf (s.coreAt n) with
    | none => s
    | some (h, q) =>
      if q.full then s
      else match s.acceptItem h q m with
        | none => s
        | some s =>
          let s := s.modCore n (fun c => { c with inbox := c.inbox.drop 1 })
          if m.weight = 0 then s else s.homeAdd m.ctx m.vint m.weight.toNat

/-- A pop request of the core is on its way, waits at the home core, or its withdrawal is on its way. -/
def State.popOut (s : State) (n : Nat) (x : Ctx) : Bool :=
  x.pops.contains n || s.net.any (fun p => decide (p.src = n) && (decide (p.body = .pop) || decide (p.body = .unpop)))

/-- An idle core treats its oldest inbox entry: a handler starts on DATA, once a pop request has been withdrawn; every other
entry is spilled. -/
def execInboxEntryStart (s : State) : Host.Outcome State Fault Refusal :=
  let n := s.ev.core
  let s := if (s.coreAt n).run = .idle then s.purgeInbox n (s.coreAt n).inbox.length else s
  let c := s.coreAt n
  .next (match s.ctxOf c, c.inbox with
    | some x, m :: rest =>
      if c.run ≠ .idle ∨ s.idleIn n c.ctxid = false then s
      else if (s.mustSpill n).isSome then s.spill n
      else if c.popReq then
        { s.modCore n (fun c => { c with popReq := false }) with
            net := s.net ++ [{ src := n, dest := .home c.ctxid.toNat, ctx := c.ctxid.toNat, body := .unpop }] }
      else if s.popOut n x then s
      else
        let h : Option Handle := if m.hnd = 0 then none else some { id := m.hnd, scope := s.scopeOf m.hnd }
        (s.modCore n (fun c => { c with inbox := rest })).startHandler n x m x.rcb.inboxent (x.rcb.prio.setWidth 4) h
    | _, _ => s)

/-- A spill that waits is tried again; an entry of an earlier vintage is discarded (09 R225). -/
def execSpillRetry (s : State) : Host.Outcome State Fault Refusal :=
  let n := s.ev.core
  .next (if (s.coreAt n).run = .idle then
    let s := s.purgeInbox n (s.coreAt n).inbox.length
    s.spill n
  else s)

/-- Every member of a multicast is answered: MCSTDONE, with the units of the members that failed (09 R245). -/
def execMcstdone (s : State) : Host.Outcome State Fault Refusal :=
  let n := s.ev.core
  .next (match (s.coreAt n).mcsts[s.ev.pick]? with
    | some r =>
      if r.answered < r.total then s
      else
        let fails := popUpTo r.failed.toNat 64
        let m := hwMsg 7 0 r.vint (1 + r.unit * fails) (s.endpoint n)
          [r.failed, BitVec.ofNat 64 (r.total - fails), 0, 0, 0, 0] r.ctx
        (s.modCore n (fun c => { c with mcsts := dropAt c.mcsts s.ev.pick, credits := min 16 (c.credits + 1) })).emitNow n
          { src := n, dest := .core n, ctx := r.ctx, body := .msg m none }
    | none => s)

/-! ## Weight (09 R226-R231) -/

/-- A grant for the run of a core: half of H, at least 1. -/
def State.grantDraw (s : State) (id : Nat) (x : Ctx) (e : Nat × Nat) : State :=
  let g := max 1 (x.H / 2)
  let s := s.setHome id (x.H - g)
  { s with net := s.net ++ [{ src := x.home, dest := .core e.1, ctx := id, body := .grant x.vint g e.2 }] }

/-- The home core serves the draw request that it has held longest, for the context `ev.val` where `ev.ok`, or takes one
that arrives; it holds it while H is 0 or an earlier one waits. -/
def execDrawRequest (s : State) : Host.Outcome State Fault Refusal :=
  .next (
    if s.ev.ok then
      let id := s.ev.val.toNat
      match s.ctx? id with
      | some x => (match x.draws with
        | n :: rest => if x.H = 0 then s else (s.setCtx id { x with draws := rest }).grantDraw id { x with draws := rest } n
        | [] => s)
      | none => s
    else match s.packet (fun p => match p.body with | .draw _ => true | _ => false) with
      | some (k, { src := n, ctx := id, body := .draw run, .. }) => (match s.ctx? id with
        | some x =>
          let s := s.dropPacket k
          if x.H = 0 ∨ x.draws ≠ [] then s.setCtx id { x with draws := x.draws ++ [(n, run)] } else s.grantDraw id x (n, run)
        | none => s.dropPacket k)
      | _ => s)

/-- A grant reaches its core (09 R226, R227). -/
def execDrawGrant (s : State) : Host.Outcome State Fault Refusal :=
  let n := s.ev.core
  .next (match s.packet (fun p => decide (p.dest = .core n) && (match p.body with | .grant _ _ _ => true | _ => false)) with
    | some (k, p) => (match p.body with
      | .grant vint g run =>
        let c := s.coreAt n
        let s := (s.dropPacket k).giveUnits n p.ctx vint g run
        (match c.txn with
         | .draw gained =>
           if c.runs run then
             s.modCore n (fun c => { c with txn := .drawn (gained + g), t := { c.t with draws := c.t.draws + 1 } })
           else s
         | _ => s)
      | _ => s)
    | none => s)

/-- A return reaches the home core. -/
def execWeightReturn (s : State) : Host.Outcome State Fault Refusal :=
  .next (match s.packet (fun p => match p.body with | .wret _ _ => true | _ => false) with
    | some (k, p) => (match p.body with
      | .wret vint u => (s.dropPacket k).homeAdd p.ctx vint u
      | _ => s)
    | none => s)

/-- The deadline of a yield request has passed: an audit (09 R231). -/
def execQuiescenceDeadline (s : State) : Host.Outcome State Fault Refusal :=
  let id := s.ev.val.toNat
  .next (match s.ctx? id with
    | some x => (match x.yreq with
      | some t =>
        if x.lost = true ∨ x.H = x.total ∨ s.time < t + x.rcb.qdeadline.toNat then s
        else
          let s' := s.setCtx id { x with lost := true }
          if s.audit id < x.total then s'.raiseEvent id cWeightLost else s'
      | none => s)
    | none => s)

/-! ## Run queues (12 R278-R281) -/

/-- A START reaches the home core: a record and an entry, or a NACK where no frame is free. It waits while a walk for what it
writes meets an invalid entry (07 R181). -/
def execStartAccept (s : State) : Host.Outcome State Fault Refusal :=
  .next (match s.packet (fun p => match p.body with | .start _ _ _ => true | _ => false) with
    | some (k, p) => (match p.body with
      | .start m prio code =>
        let s0 := s
        let s := s.dropPacket k
        (match s.ctx? p.ctx with
         | none => (s.dropHnd m).credit 4096 p
         | some x =>
           if m.vint ≠ x.vint then (s.discard m).credit x.home p
           else if s.areaWait (x.freeArea ++ s.queueAreas x prio) then s0.arriveAt k p
           else match s.startRecord p.ctx m prio code with
             | some s => (s.homeAdd p.ctx m.vint m.weight.toNat).credit x.home p
             | none => s.refuse x.home p m none 1 (s.endpoint x.home))
      | _ => s)
    | none => s)

/-- A core that has become idle is rebound where a rebinding waits for one of its stage (12 R281). -/
def Ctx.rebound (x : Ctx) (n : Nat) : Ctx :=
  match findAt (fun (e : Nat × Nat) => x.stages.contains (n, e.1)) x.rebind 0 with
  | some (k, _, a) => { x with rebind := dropAt x.rebind k, stages := x.stages.map (fun e => if e.1 = n then (n, a) else e) }
  | none => x

/-- An idle core without a DATA entry asks for a pop; a core that the governor waits for is rebound first (12 R281). In a
deterministic region pops are served at the quantum end. -/
def execPopRequest (s : State) : Host.Outcome State Fault Refusal :=
  let n := s.ev.core
  let c := s.coreAt n
  let id := c.ctxid.toNat
  .next (match s.ctxOf c with
    | some x =>
      if c.run = .idle ∧ s.idleIn n c.ctxid = true ∧ c.inbox.all (fun m => decide (m.kind ≠ 2)) = true ∧ c.yreq = false ∧ x.saved = false ∧ c.popReq = false
          ∧ s.popOut n x = false ∧ s.isDet c = false then
        { (s.setCtx id (x.rebound n)).modCore n (fun c => { c with popReq := true }) with
            net := s.net ++ [{ src := n, dest := .home id, ctx := id, body := .pop }] }
      else s
    | none => s)

/-- The entry is void. -/
def State.isVoid (s : State) (e : Nat) : Bool := decide (s.vNum (e + 0xE) 1 % 2 = 1)
/-- The queue without the void entries at its head. -/
def State.skipVoid (s : State) (q : Queue) : Nat → Queue
  | 0 => q
  | fuel + 1 => if 0 < q.count ∧ s.isVoid (q.entry q.head) = true then s.skipVoid { q with head := q.head + 1 } fuel else q

/-- The oldest frame of a queue's overflow chain moves into the ring (12 R279). -/
def State.refill (s : State) (id q : Nat) : State :=
  match s.ctx? id with
  | none => s
  | some x =>
    let f := (x.chains.getD q 0).toNat
    let h := x.rcb.cq.getD q 0
    match s.queueOf h with
    | some qu =>
      if f = 0 ∨ qu.full = true then s
      else
        let next := s.linkOf x f
        match s.ringPush h qu (runEntry f (s.vNum (f + 0xC) 4) (s.vNum (f + 0x14) 2)) with
        | some s => (s.vSet (frLink f) 8 0).modCtx id (fun x => { x with chains := setAt x.chains q (BitVec.ofNat 64 next) })
        | none => s
    | none => s

/-- The void entries at the head of a run queue leave it, and the oldest records of its chain move in (12 R278, R279); a queue
that becomes empty loses its skip count (12 R280). -/
def State.trimVoid (s : State) (id q : Nat) : Nat → State
  | 0 => s
  | fuel + 1 =>
    match s.ctx? id with
    | none => s
    | some x =>
      let h := x.rcb.cq.getD q 0
      match s.queueOf h with
      | none => s
      | some qu =>
        if qu.count = 0 then s.setCtx id { x with skip := setAt x.skip q 0 }
        else if s.isVoid (qu.entry qu.head) then
          State.trimVoid ((s.setQueue h { qu with head := qu.head + 1 }).refill id q) id q fuel
        else s
/-- In every run queue of a context; each of its frames is in at most one. -/
def State.trimVoids (s : State) (id : Nat) : State :=
  let n := ((s.ctx? id).map (fun x => x.rcb.fpooln.toNat)).getD 0
  (List.range 16).foldl (fun (s : State) q => s.trimVoid id q (2 ^ 20 + n + 1)) s

/-- The queues that a core may pop, from its stage on (12 R280, R281), in the order in which it takes them. -/
def Ctx.order (x : Ctx) (n : Nat) (full : List Nat) : List Nat :=
  let pick (l : List Nat) : List Nat :=
    let starved := l.filter (fun q => decide (16 ≤ x.skip.getD q 0))
    (starved.reverse ++ l.reverse)
  match x.stages.find? (fun e => decide (e.1 = n)) with
  | some (_, st) =>
    (if full.contains st then [st] else []) ++ pick (full.filter (fun q => !x.rcb.govmask.getLsbD q))
  | none => pick full

/-- The run queues that hold an entry that is not void. -/
def State.fullQueues (s : State) (x : Ctx) : List Nat :=
  (List.range 16).filter (fun q => match s.queueOf (x.rcb.cq.getD q 0) with
    | some qu => decide (0 < (s.skipVoid qu qu.count).count)
    | none => false)

/-- A core pops the chosen queue and resumes the record, once what it reads is mapped (07 R181). One that is out of range takes FUTURE (12 R270), with its entry's
weight in w and PC 0 (log entry 52). -/
def State.popFor (s : State) (id n q : Nat) : State :=
  match s.ctx? id with
  | none => s
  | some x =>
    let h := x.rcb.cq.getD q 0
    match s.queueOf h with
    | none => s
    | some qu =>
      let qu := s.skipVoid qu qu.count
      let e := qu.entry qu.head
      let f := s.vNum e 8
      let w := s.vNum (e + 8) 4
      let full := s.fullQueues x
      if s.areaWait ((e, 64) :: frameArea f :: s.queueAreas x q) then s
      else
      let qu := { qu with head := qu.head + 1 }
      let skip := (List.range 16).map (fun i =>
        if i = q ∨ full.contains i = false then 0 else x.skip.getD i 0 + 1)
      let s := (s.setQueue h qu).setCtx id { x with skip := skip, pops := x.pops.filter (· ≠ n) }
      let s := ((s.refill id q).trimVoids id).setHome id (x.H - w)
      let x' := (s.ctx? id).getD x
      if s.frameOk x' f then s.resumeRecord n x' f
      else
        let s := s.startRun n x' { Thread.reset with w := BitVec.ofNat 32 w, vint := x'.vint }
        s.modCore n (fun c => c.takeTrap cFuture (futureTval 3 (BitVec.ofNat 64 f)) false c.t.pc 0)

/-- The home core may serve pops: no yield request, not saved, no open cask (12 R280, 15 R355). -/
def State.mayPop (s : State) (x : Ctx) : Bool := x.yreq.isNone && !x.saved && !s.caskBusy

/-- The home core takes a pop request that arrives, or, where `ev.ok`, serves the oldest one of the context `ev.val` that
finds an entry. -/
def execPopServe (s : State) : Host.Outcome State Fault Refusal :=
  .next (
    if s.ev.ok then
      let id := s.ev.val.toNat
      match s.ctx? id with
      | some x =>
        if s.mayPop x then
          let full := s.fullQueues x
          match x.pops.find? (fun n => !(x.order n full).isEmpty && s.idleIn n (BitVec.ofNat 32 id)) with
          | some n => (match x.order n full with
            | q :: _ => s.popFor id n q
            | [] => s)
          | none => s
        else s
      | none => s
    else match s.packet (fun p => decide (p.body = .pop)) with
      | some (k, p) => (s.dropPacket k).modCtx p.ctx (fun x => { x with pops := x.pops ++ [p.src] })
      | none => s)

/-- A withdrawal reaches the home core: a request that is not yet served is never served. -/
def execPopWithdraw (s : State) : Host.Outcome State Fault Refusal :=
  .next (match s.packet (fun p => decide (p.body = .unpop)) with
    | some (k, p) => (s.dropPacket k).modCtx p.ctx (fun x => { x with pops := x.pops.filter (· ≠ p.src) })
    | none => s)

/-- The entries of a run queue's ring. -/
def State.entries (s : State) (x : Ctx) (q : Nat) : Nat := ((s.queueOf (x.rcb.cq.getD q 0)).map Queue.count).getD 0

/-- The governor of the context `ev.val` evaluates its stages (12 R281). -/
def execGovernorEvaluate (s : State) : Host.Outcome State Fault Refusal :=
  let id := s.ev.val.toNat
  .next (match s.ctx? id with
    | some x =>
      let qs := (List.range 16).filter (fun q => x.rcb.govmask.getLsbD q)
      if x.rcb.modef.getLsbD 2 = false ∨ x.yreq.isSome = true ∨ x.saved = true ∨ s.time < x.govAt + 1000 then s
      else match qs with
        | [] => s
        | q0 :: rest =>
          let x := { x with govAt := s.time }
          let a := rest.foldl (fun b q => if s.entries x b < s.entries x q then q else b) q0
          let b := rest.foldl (fun b q => if s.entries x q < s.entries x b then q else b) q0
          let bound := (x.stages.filter (fun e => decide (e.2 = b))).map (·.1)
          -- the cores of b that stay, once those that a rebinding waits for have left it
          let left := bound.length - (x.rebind.filter (fun e => decide (e.1 = b))).length
          if x.rcb.govhi.toNat < s.entries x a ∧ s.entries x b < x.rcb.govlo.toNat ∧ 2 ≤ left then
            let idle := bound.filter (fun m => s.idleIn m (BitVec.ofNat 32 id))
            let x := match idle with
              | [] => { x with rebind := x.rebind ++ [(b, a)] }
              | m :: ms =>
                let m := ms.foldl max m
                { x with stages := x.stages.map (fun e => if e.1 = m then (m, a) else e) }
            s.setCtx id x
          else s.setCtx id x
    | none => s)

/-! ## The trigger (12 R282, 17 R368) -/

/-- A node of a task graph. -/
structure Node where
  dest : Nat
  payload : List W64
  weight : Nat
  deriving DecidableEq, Repr

/-- The nodes up to LAST; none where one is malformed or cannot be read (12 R282). No graph has more nodes than an address
space holds. -/
def State.readGraph (s : State) (a : Nat) : Nat → Option (List Node)
  | 0 => none
  | fuel + 1 =>
    match s.vRead a 64 with
    | none => none
    | some bs =>
      let dest := fieldAt bs 0 8
      let w := fieldAt bs 0x38 4
      let fl := fieldAt bs 0x3C 4
      if w = 0 ∨ 1 < fl ∨ dest % 8 ≠ 0 ∨ dest / 2 ^ 56 % 4 ≠ 0 then none
      else
        let n : Node := { dest := dest, payload := (List.range 6).map (fun i => BitVec.ofNat 64 (fieldAt bs (8 + 8 * i) 8)), weight := w }
        if fl = 1 then some [n] else (s.readGraph (a + 64) fuel).map (fun l => n :: l)

/-- The patches of a trigger block: node, word, value. -/
def patchesOf (bs : List Byte) : List (Nat × Nat × Nat) :=
  (List.range (fieldAt bs 4 1)).map (fun i => (fieldAt bs (0x10 + 16 * i) 2, fieldAt bs (0x12 + 16 * i) 1, fieldAt bs (0x18 + 16 * i) 8))

def applyPatch (l : List Node) (p : Nat × Nat × Nat) : List Node :=
  l.mapIdx (fun i (n : Node) => if i = p.1 then { n with payload := setAt n.payload p.2.1 (BitVec.ofNat 64 p.2.2) } else n)

/-- The status of a trigger, and the state it leaves. -/
def State.triggerEnd (s : State) (bs : List Byte) : Nat × State :=
  let id := fieldAt bs 0 4
  match s.ctx? id with
  | none => (2, s)
  | some x =>
    if s.caskBusy then (5, s)
    else if x.H ≠ x.total ∨ x.saved = true ∨ x.yreq.isSome = true then (1, s)
    else if bs.length ≠ 256 ∨ 8 < fieldAt bs 4 1 then (3, s)
    else match s.readGraph x.rcb.graph.toNat (2 ^ 50) with
      | none => (3, s)
      | some l =>
        if (patchesOf bs).any (fun p => decide (l.length ≤ p.1) || decide (5 < p.2.1)) then (3, s)
        else if x.total < (l.map (·.weight)).sum then (4, s)
        else if (s.freeFrames x).length < l.length then (6, s)
        else
          let l := (patchesOf bs).foldl applyPatch l
          (0, l.foldl (fun (s : State) n =>
            let m : Msg := { kf := 1, vint := x.vint, weight := BitVec.ofNat 32 n.weight, src := 0, hnd := 0, payload := n.payload, ctx := id }
            (s.startRecord id m (n.dest / 2 ^ 58 % 16) (BitVec.ofNat 64 (n.dest % 2 ^ 56))).getD s) s)

/-- The host writes `ev.data` to TRIGGER. -/
def execTrigger (s : State) : Host.Outcome State Fault Refusal :=
  let (st, s') := s.triggerEnd s.ev.data
  .next { s' with trigstat := BitVec.ofNat 64 (fieldAt s.ev.data 8 8 % 2 ^ 56 * 256 + st) }

/-! ## Deterministic quanta (12 R283, R284) -/

/-- A core has reached its quantum end. -/
def Core.reached (c : Core) : Bool :=
  decide (c.run = .idle) || decide (c.run = .asleep) || decide (c.run = .stopped) || decide (c.run = .inReset)
    || ((c.qended || c.awaitsCommit) && c.mem.all (fun a => a.cleared || a.held) && c.pushes.isEmpty)

/-- An idle core has an inbox entry to treat: its handler starts, or it is spilled (09 R223), before the quantum ends (10
R259). -/
def State.startable (s : State) (n : Nat) : Bool :=
  let c := s.coreAt n
  decide (c.run = .idle) && (match c.inbox with
    | [] => false
    | m :: _ => !s.fresh m || (s.mustSpill n).isNone || !s.spillFull c)

/-- The held accesses of core `n` are performed in program order. -/
def State.commitMem (s : State) (n : Nat) : Nat → State
  | 0 => s
  | fuel + 1 =>
    match findAt (fun (a : Access) => a.held) (s.coreAt n).mem 0 with
    | none => s
    | some (k, x) =>
      let y : Access := { x with held := false }
      let s' := match s.perform n y ((s.coreAt n).mem.take k) with
        | .done vals s' => s'.complete n k y vals
        | _ => s.modCore n (fun c => { c with mem := setAt c.mem k y })
      State.commitMem s' n fuel

/-- The areas that the held future words of core `n` use. -/
def State.heldAreas (s : State) (x : Ctx) (n : Nat) : List (Nat × Nat) :=
  (s.coreAt n).heldOut.flatMap (fun p => match p.body with
    | .fset f _ _ => s.wakeAreas x f
    | .fref f | .fdrop f => [(f, 32)]
    | _ => [])

/-- Step 1 of R284 for one core: its held accesses, then its held effects. A waiting word then runs in the commit. -/
def State.commitCore (s : State) (n : Nat) : State :=
  let s := s.commitMem n (s.coreAt n).mem.length
  let out := (s.coreAt n).heldOut
  let s := s.modCore n (fun c => { c with heldOut := [], qgo := decide (c.run = .running) && decide (c.slot = .waiting) })
  out.foldl (fun (s : State) p => s.commitPacket p) s

/-- An engine's write at a quantum end met an ECC error (12 R276). -/
def State.eccEnd (s : State) (ctx code : Nat) : State := if code = cEcc.toNat then s.faultDomain ctx else s

/-- Step 2 of R284: a copy command that has completed is committed. -/
def State.commitCmd (s : State) (n k : Nat) (q : CopyCmd) : State :=
  let (s', q') := s.commitCopy n q.count (q.count + 1) { q with count := 0 }
  let s' := if q'.status = q.status then s' else s'.eccEnd q.ctx ((q'.status.map (fun e => e.2.1)).getD 0)
  (s'.setCmd n k q').copyDone n k
/-- The same for a tile task. -/
def State.commitPress (s : State) (sg k : Nat) (t : TileTask) : State :=
  let (s', t') := s.commitTile t
  let s' := match t'.status with
    | .done _ _ code _ => if t'.status = t.status then s' else s'.eccEnd t.ctx code
    | _ => s'
  (s'.setTask sg k t').tileFinish sg k
def TileTask.ended (t : TileTask) : Bool := match t.status with | .done _ _ _ _ => true | _ => false
/-- The engine commands of one core that have completed, in the order in which they were issued. -/
def State.commitOf (s : State) (n id : Nat) : Nat → State
  | 0 => s
  | fuel + 1 =>
    let sg := sgOf n
    match findAt (fun (q : CopyCmd) => q.status.isSome) (s.coreAt n).copyq 0,
        findAt (fun (t : TileTask) => decide (t.poster = n) && decide (t.ctx = id) && t.ended) (s.tasks sg) 0 with
    | some (k, q), some (j, t) => (if q.order ≤ t.order then s.commitCmd n k q else s.commitPress sg j t).commitOf n id fuel
    | some (k, q), none => (s.commitCmd n k q).commitOf n id fuel
    | none, some (j, t) => (s.commitPress sg j t).commitOf n id fuel
    | none, none => s

/-- The cores of a context in increasing logical number. -/
def Ctx.sorted (x : Ctx) : List Nat :=
  x.cores.foldl (fun (l : List Nat) m => l.filter (· < m) ++ [m] ++ l.filter (m < ·)) []

/-- Step 2: the engine commands that have completed, by core. -/
def State.commitEngines (s : State) (x : Ctx) (id : Nat) : State :=
  x.sorted.foldl (fun (s : State) n =>
    let s := s.commitOf n id ((s.coreAt n).copyq.length + (s.tasks (sgOf n)).length)
    s.modCore n (fun c => { c with t := { c.t with streams := c.t.streams.map (fun q => q.map (fun (q : Stream) => { q with fetched := [] })) } })) s

/-- Step 4: pops for idle cores. -/
def State.commitPops (s : State) (id : Nat) (ms : List Nat) : State :=
  ms.foldl (fun (s : State) n =>
    match s.ctx? id with
    | some x =>
      if s.mayPop x && s.idleIn n (BitVec.ofNat 32 id) && (s.coreAt n).inbox.all (fun m => decide (m.kind ≠ 2)) then
        let s := s.setCtx id (x.rebound n)
        (match (x.rebound n).order n (s.fullQueues x) with
         | q :: _ => s.popFor id n q
         | [] => s)
      else s
    | none => s) s

/-- Step 5, and the asynchronous causes of the boundary. -/
def State.endCommit (s : State) (id : Nat) (x : Ctx) : State :=
  let ms := x.sorted
  let s := s.commitPops id ms
  let s := s.modCtx id (fun x => { x with committing := false, engines := false, seq := x.seq + 1 })
  let s := ms.foldl (fun (s : State) n => s.modCore n (fun c => { c with
    qended := false, qgo := false, qcount := 0
    txn := (match c.txn with | .waita t true => .waita t false | t => t) })) s
  ms.foldl (fun (s : State) n =>
    let c := s.coreAt n
    if c.preempt ∧ c.pl = 0 ∧ c.run = .running ∧ c.leader = none then s.preemptNow n else s) s

/-- The quantum end of the deterministic region of the context `ev.val` (12 R284), once every core has reached its own: step 1 core
by core, each with its waiting word before the next; step 2; and once every packet of the context that they produced has been
delivered in order (step 3), and every handler that starts on one has, steps 4 and 5. -/
def execQuantumEnd (s : State) : Host.Outcome State Fault Refusal :=
  let id := s.ev.val.toNat
  .next (match s.ctx? id with
    | some x =>
      if x.rcb.modef.getLsbD 1 = false then s
      else if x.committing then
        if x.cores.any (fun n => (s.coreAt n).qgo) then s
        else match x.toCommit with
        | n :: rest => if s.areaWait (s.heldAreas x n) then s else (s.setCtx id { x with toCommit := rest }).commitCore n
        | [] =>
          if x.engines then (s.setCtx id { x with engines := false }).commitEngines x id
          else if s.net.any (fun p => decide (p.ctx = id) && !p.waits) || x.cores.any s.startable then s
          else s.endCommit id x
      else if x.cores.all (fun n => (s.coreAt n).reached) then
        s.setCtx id { x with committing := true, toCommit := x.sorted, engines := true }
      else s
    | none => s)

/-! ## Reclamation and frames (12 R267, R273) -/

/-- The thread of a frame is on its way to another core. -/
def State.inFlight (s : State) (f : Nat) : Bool :=
  s.net.any (fun p => match p.body with | .migrate t _ => decide (t.frame.toNat = f) && decide (f ≠ 0) | _ => false)

/-- A reclamation mark reaches the home core; one for a thread on its way waits. -/
def execReclaimMark (s : State) : Host.Outcome State Fault Refusal :=
  .next (match s.packet (fun p => match p.body with | .mark _ _ => true | _ => false) with
    | some (k, p) => (match p.body with
      | .mark f fu => if s.inFlight f.toNat || s.areaWait (((s.ctx? p.ctx).map (fun x => s.markAreas x f.toNat fu.toNat)).getD []) then s.arriveAt k p else ((s.dropPacket k).serveMark p.ctx f.toNat fu.toNat).trimVoids p.ctx
      | _ => s)
    | none => s)

/-- What the return of a frame uses: it, its parent and the parent's run queue, and the free frames. -/
def State.returnAreas (s : State) (x : Ctx) (f : Nat) : List (Nat × Nat) :=
  let p := s.vNum (frParent f) 8
  frameArea f :: (if x.isFrame p then frameArea p :: s.queueAreas x (s.framePrio p) else []) ++ (s.freeFrames x).map (fun g => (g, 8))

/-- An ended frame of the context `ev.val` whose JOIN is 0 returns to the pool, once what it uses is mapped (07 R181). -/
def execFrameReturn (s : State) : Host.Outcome State Fault Refusal :=
  let id := s.ev.val.toNat
  .next (match s.ctx? id with
    | some x => (match (x.ended.filter (fun f => decide (s.vNum (frJoin f.toNat) 4 = 0)))[s.ev.pick]? with
      | some f => if s.areaWait (s.returnAreas x f.toNat) then s else s.returnFrame id f.toNat
      | none => s)
    | none => s)

/-! ## Held messages and gateways -/

/-- A message that `errinj` held is delivered (06 R163). -/
def execHeldMessageRelease (s : State) : Host.Outcome State Fault Refusal :=
  .next (match s.heldMsgs[s.ev.pick]? with
    | some h => if h.until_ ≤ s.time then { s with heldMsgs := dropAt s.heldMsgs s.ev.pick, net := s.net ++ [h.pkt] } else s
    | none => s)

/-- A device has not answered for 50 µs, or no link to it has been open for as long: where `ev.ok`, a message to it is refused
with ABSENT (09 R221, 17 R372, R373); else an access to it takes BAD_ADDRESS (07 R168, R183): `ev.val` says whether it is one of a core's
list (0), of a copy command (1) or a tile task (2), which end FAULT with that code, of a word or a fetch that waits for it (3), or of a
stream (4), whose strip then has the trap. -/
def execGatewayTimeout (s : State) : Host.Outcome State Fault Refusal :=
  let n := s.ev.core
  .next (
    if s.ev.ok then
      match s.packet (fun p => match p.dest, p.body with | .remote _, .msg _ _ | .remote _, .start _ _ _ => true | _, _ => false) with
      | some (k, p) => (match p.body, p.dest, p.since with
        | .msg m member, .remote id, some t =>
          if t + 50000 ≤ s.time then (s.dropPacket k).refuseMsg n p m member 7 id else s
        | .start m _ _, .remote id, some t =>
          if t + 50000 ≤ s.time then (s.dropPacket k).refuseMsg n p m none 7 id else s
        | _, _, _ => s)
      | none => s
    else if s.ev.val = 1 then
      match s.cmdAt n s.ev.pick with
      | some k =>
        let (src, dst, len) := k.chunk
        let a := if k.buf.length < len then src + BitVec.ofNat 64 k.buf.length else dst + BitVec.ofNat 64 k.put
        if k.validated && k.status.isNone && !k.waiting && k.parked.isNone && (s.awayAt (s.locate a)).isSome
            && s.ticketTurn k.handle k.ticket && decide (k.since + 50000 ≤ s.time) then s.cmdFault n s.ev.pick k cBadAddress a
        else s
      | none => s
    else if s.ev.val = 2 then
      (match (s.tasks (sgOf n))[s.ev.pick]? with
       | some t =>
         if t.since + 50000 ≤ s.time ∧ t.parked = none then
           (match s.taskAway t with
            | some (k, a) => s.setTask (sgOf n) s.ev.pick (t.fail k cBadAddress a)
            | none => s)
         else s
       | none => s)
    else if s.ev.val = 3 then
      (match (s.coreAt n).silent with
       | some (t, a) => if t + 50000 ≤ s.time then s.wordTrap n cBadAddress a else s
       | none => s)
    else if s.ev.val = 4 then
      (match (s.coreAt n).streamOf (28 + s.ev.pick) with
       | some q =>
         let a := q.addr (q.pos + q.fetched.length)
         if q.fetches && decide (q.since + 50000 ≤ s.time) && (s.locsOf a 1).any (fun l => (s.awayAt l).isSome) then
           s.modCore n (fun c => c.setStream (28 + s.ev.pick) (some { q with
             fetched := q.fetched ++ [{ bytes := [], trap := some cBadAddress }], since := s.time }))
         else s
       | none => s)
    else match s.access with
      | some x =>
        if x.bytes.any (fun b => (s.awayAt b).isSome) && !x.performed && decide (x.since + 50000 ≤ s.time) then
          s.lateFault n s.ev.pick cBadAddress x.addr else s
      | none => s)

end Sys2Proof.Machine
end

