-- ==== Sys2Proof/Machine/EventsDev.lean ====
section
/-!
DEFINITION. The steps of the opcode table that the engines, the fabric, the host link, the device registers, the scrub engine
and resets make (13 R326; 15 R340-R353; 17 R366-R382). Where a step's condition does not hold it changes nothing (log
entry 5).
-/
namespace Sys2Proof.Machine

/-! ## Streams (13 R326) -/

/-- How reading a strip ends. -/
inductive StripRead where
  | strip (e : Strip) (s : State)
  | park (pte : Nat)
  | wait
  deriving DecidableEq, Repr

/-- A strip of a stream as core `n` fetches it, the core of the step: an h0 plain device-scope read with the streaming hint and the
checks of a vector load. -/
def State.readStrip (s : State) (n : Nat) (a : W64) : StripRead :=
  let c := s.coreAt n
  let len := storedSize (s.fmtAt a)
  match s.accCheck c .vload a len with
  | some code => .strip { bytes := [], trap := some code } s
  | none =>
    match s.window a with
    | .gen g off => .strip { bytes := genBytes (c.gen g) off len, trap := none } s
    | _ =>
      let locs := s.vecLocs c a
      if locs.any s.blockedPlace then .wait
      else match s.readAt n (s.newAccess .load (.vec (s.fmtAt a)) a locs [] 0 .plain .dev .stream) locs with
        | .ok bs s' => .strip { bytes := bs, trap := none } s'
        | .invalid p => .park p
        | .stop code => .strip { bytes := [], trap := some code } s

/-- Stream `ev.pick` of the core fetches its next strip ahead. -/
def execStreamFetch (s : State) : Host.Outcome State Fault Refusal :=
  let n := s.ev.core
  let r := 28 + s.ev.pick
  .next (match (s.coreAt n).streamOf r with
    | none => s
    | some q =>
      let k := q.pos + q.fetched.length
      if q.fetches = false then s
      else
        let put (s : State) (q : Stream) : State := s.modCore n (fun c => c.setStream r (some q))
        match s.readStrip n (q.addr k) with
        | .strip e s' => put s' { q with fetched := q.fetched ++ [e], since := s.time }
        | .park p =>
          (match s.engPark (s.coreAt n).ctxid.toNat (q.addr k) p with
           | none => put s { q with fetched := q.fetched ++ [{ bytes := [], trap := some cPageFault }] }
           | some w => put s { q with parked := some w })
        | .wait => s)

/-! ## The copy engine (15 R340-R345) -/

/-- Command `ev.pick` of the core is validated. -/
def execCopyValidate (s : State) : Host.Outcome State Fault Refusal :=
  let n := s.ev.core
  let i := s.ev.pick
  .next (match s.cmdAt n i with
    | none => s
    | some k =>
      if k.validated then s
      else s.setCmd n i (match s.copyCheck k with
        | some st => { k with validated := true }.finish st 0 0
        | none => { k with validated := true }))

/-- Command `ev.pick` of the core moves its next chunk. -/
def execCopyChunk (s : State) : Host.Outcome State Fault Refusal :=
  let n := s.ev.core
  let i := s.ev.pick
  .next (match s.cmdAt n i with
    | none => s
    | some k =>
      if k.validated = false ∨ k.status.isSome = true ∨ k.waiting = true ∨ k.parked.isSome = true
          ∨ s.ticketTurn k.handle k.ticket = false then s
      else s.copyChunk n i)

/-- Command `ev.pick` of the core completes; in a deterministic region the quantum end completes it (15 R348). -/
def execCopydone (s : State) : Host.Outcome State Fault Refusal :=
  let n := s.ev.core
  let i := s.ev.pick
  .next (match s.cmdAt n i with
    | none => s
    | some k => if s.detCtx k.ctx then s else s.copyDone n i)

/-! ## The press (15 R352, R353) -/

/-- The oldest task of a supergroup that can be issued, or that a failed dependence ends. -/
def State.nextTask (s : State) (sg : Nat) : Option (Nat × TileTask) :=
  findAt (fun (t : TileTask) => decide (t.status = .waiting) && !t.marked && (s.depFailed t || s.tileReady t)) (s.tasks sg) 0

/-- The tile scheduler of the core's supergroup issues a task to the lowest free press, or ends it DEPFAIL. -/
def execTileTaskIssue (s : State) : Host.Outcome State Fault Refusal :=
  let sg := sgOf s.ev.core
  .next (match s.nextTask sg with
    | none => s
    | some (i, t) =>
      if s.depFailed t then s.setTask sg i { t with status := .done stDepFail 0 0 0 }
      else match s.freePress sg with
        | some p => s.setTask sg i { t with status := .issued p, since := s.time }
        | none => s)

/-- A task that has ended makes its completion; in a deterministic region the quantum end makes it. -/
def State.tileEnd (s : State) (sg i : Nat) : State :=
  match (s.tasks sg)[i]? with
  | some t => if s.detCtx t.ctx then s else s.tileFinish sg i
  | none => s

/-- A task that ends FAULT for an ECC error outside a quantum end: its context's fault domain stops (12 R276). -/
def State.tileEcc (s : State) (sg i : Nat) : State :=
  match (s.tasks sg)[i]? with
  | some t => (match t.status with | .done st _ code _ => if st = stFault then s.eccEnd t.ctx code else s | _ => s)
  | none => s

/-- Task `ev.pick` of the core's supergroup goes on on its press, and completes once it has ended. A marked task goes on only
where its result write has begun (15 R353). -/
def execTiledone (s : State) : Host.Outcome State Fault Refusal :=
  let sg := sgOf s.ev.core
  let i := s.ev.pick
  .next (match (s.tasks sg)[i]? with
    | none => s
    | some t =>
      match t.status with
      | .issued _ => if (t.marked && !t.begun) || t.parked.isSome then s else ((s.tileRun sg i).tileEcc sg i).tileEnd sg i
      | .done _ _ _ _ => s.tileEnd sg i
      | .waiting => s)

/-- Task `ev.pick` of the core's supergroup, which reclamation has marked, is dropped or aborted, unless its result write has
begun (15 R353). -/
def execTileTaskAbort (s : State) : Host.Outcome State Fault Refusal :=
  let sg := sgOf s.ev.core
  let i := s.ev.pick
  .next (match (s.tasks sg)[i]? with
    | none => s
    | some t =>
      let open_ : Bool := match t.status with | .done _ _ _ _ => false | _ => true
      if t.marked && open_ && !t.begun then (s.setTask sg i { t with out := none, status := .done stReclaimed 0 0 0 }).tileEnd sg i else s)

/-! ## Links (17 R372, R373): `ev.pick` is the link -/

def State.linkAt (s : State) (i : Nat) : Link := FMap.getD s.links i Link.reset
def State.setLink (s : State) (i : Nat) (l : Link) : State := { s with links := FMap.put s.links i l }
/-- There are 19 links; link 18 is Novay. -/
def isLink (i : Nat) : Bool := decide (i < 19)

/-- A receiver accepts a marker and switches slots: the far end's, so that the next `linkkey` may load the slot that is no longer
live, or this end's (`ev.ok`). -/
def execKeyMarkerAccept (s : State) : Host.Outcome State Fault Refusal :=
  let l := s.linkAt s.ev.pick
  .next (if isLink s.ev.pick = false then s
    else if s.ev.ok then s.setLink s.ev.pick { l with recvB := !l.recvB }
    else s.setLink s.ev.pick { l with marker := false })
/-- The live slot's counter has reached 2^47. -/
def execKeydue (s : State) : Host.Outcome State Fault Refusal :=
  let l := s.linkAt s.ev.pick
  .next (if isLink s.ev.pick = true ∧ 2 ^ 47 ≤ l.count then s.setLink s.ev.pick { l with keydue := true } else s)
/-- The live slot's counter has reached 2^48: the transmitter holds its flits. -/
def execKeyExhausted (s : State) : Host.Outcome State Fault Refusal :=
  let l := s.linkAt s.ev.pick
  .next (if isLink s.ev.pick = true ∧ 2 ^ 48 ≤ l.count then s.setLink s.ev.pick { l with holding := true } else s)
/-- A flit fails authentication; where `ev.ok` its replay has passed. The port goes down after 16 failed replays. -/
def execFlitAuthFail (s : State) : Host.Outcome State Fault Refusal :=
  let l := s.linkAt s.ev.pick
  .next (if isLink s.ev.pick = false then s
    else if s.ev.ok then s.setLink s.ev.pick { l with replays := 0 }
    else s.setLink s.ev.pick { l with replays := l.replays + 1, down := l.down || decide (16 ≤ l.replays) })

/-! ## Reductions (17 R370, R371) -/

def State.group (s : State) (g : Nat) : RedCfg := FMap.getD s.redcfg g RedCfg.reset
def State.setGroup (s : State) (g : Nat) (r : RedCfg) : State := { s with redcfg := FMap.put s.redcfg g r }
def RedCfg.armed (r : RedCfg) : Bool := r.ctrl.getLsbD 63
def RedCfg.nmem (r : RedCfg) : Nat := (r.ctrl.extractLsb' 16 16).toNat
def RedCfg.etype (r : RedCfg) : Nat := (r.ctrl.extractLsb' 8 8).toNat
def RedCfg.op (r : RedCfg) : Nat := (r.ctrl.extractLsb' 0 8).toNat

/-- Every other device of the member list has registered the same. -/
def State.allRegistered (s : State) (g : Nat) (r : RedCfg) : Bool :=
  r.list.contains s.devid && r.list.all (fun d => decide (d = s.devid)
    || s.members.contains { group := g, dev := d, op := r.op, etype := r.etype, list := r.list })

/-- The size of an element. -/
def etypeSize (t : Nat) : Nat := if t = 1 then 2 else 4
/-- A command's contributions to one group. -/
def CopyCmd.toGroup (k : CopyCmd) (g : Nat) : Bool :=
  k.held.any (fun e => match contribOf (BitVec.ofNat 64 e.1) with | some (h, _, _) => decide (h = g) | none => false)
/-- The contribution places of a command: group, seq and offset of each byte. -/
def CopyCmd.places (k : CopyCmd) : List (Nat × Nat × Nat) := k.held.filterMap (fun e => contribOf (BitVec.ofNat 64 e.1))

/-- Every waiting command that satisfies a test ends REDUCE_ABORTED. -/
def State.abortWhere (s : State) (p : CopyCmd → Bool) : State :=
  { s with cores := s.cores.map (fun (e : Nat × Core) => (e.1, { e.2 with
      copyq := e.2.copyq.map (fun (k : CopyCmd) =>
        if k.waiting && p k then { k with waiting := false, held := [] }.finish stReduceAborted 0 0 else k) })) }

/-- STATE follows from the registrations; a group that is no longer active aborts what it has in progress. -/
def State.settleGroup (s : State) (g : Nat) : State :=
  let r := s.group g
  let st : BitVec 2 := if r.armed = false then 0 else if s.allRegistered g r then 2 else 1
  let s := s.setGroup g { r with state := st }
  if st = 2 then s else s.abortWhere (fun k => k.toGroup g)

/-- A member list as it is read: device numbers in bits 13:0 of 4-byte entries. -/
def listOf (bs : List Byte) : List Nat := (wordsOf bs).map (fun w => ofBytes w % 2 ^ 14)

/-- A write of CTRL: an arming is checked and reads the list. -/
def State.arm (s : State) (g : Nat) (x : W64) : State :=
  let r : RedCfg := { s.group g with ctrl := x &&& 0x8000_0000_FFFF_FFFF }
  let off : RedCfg := { r with ctrl := r.ctrl &&& 0x7FFF_FFFF_FFFF_FFFF, list := [] }
  let r' : RedCfg :=
    if r.armed = false then off
    else if r.nmem < 2 ∨ 16384 < r.nmem ∨ 2 < r.etype ∨ 2 < r.op ∨ r.rbase.toNat % 64 ≠ 0 ∨ r.mlist.toNat % 8 ≠ 0 then off
    else match (List.range r.nmem).foldr (fun i (l : Option (List Nat)) =>
        match s.vRead (r.mlist.toNat + 4 * i) 4, l with
        | some bs, some l => some (listOf bs ++ l)
        | _, _ => none) (some []) with
      | some l => { r with base := r.rbase, list := l }
      | none => off
  (s.setGroup g r').settleGroup g

/-- The store at place `ev.pick` is to a device register, and may be performed: its offset and value. -/
def State.regStore (s : State) : Option (Access × Nat × W64) :=
  match s.access with
  | some x =>
    (match s.regOff? x.addr with
     | some off => if x.isStore && x.cleared && s.mayPerform s.ev.core s.ev.pick then some (x, off, x.operand) else none
     | none => none)
  | none => none

/-- A machine write of a reduction-group record. -/
def execRedcfgWrite (s : State) : Host.Outcome State Fault Refusal :=
  .next (match s.regStore with
    | some (x, off, v) =>
      (match s.regWrite off v with
       | .redcfg g f =>
         let r := { s.group g with ctrl := v }
         if f = 0 && r.armed && s.areaWait [(r.mlist.toNat, 4 * r.nmem)] then s
         else
         let s' := match f with
           | 0 => s.arm g v
           | 1 => s.setGroup g { s.group g with rbase := v &&& 0x00FF_FFFF_FFFF_FFFF }
           | 2 => s.setGroup g { s.group g with mlist := v &&& 0x00FF_FFFF_FFFF_FFFF }
           | _ => s
         s'.complete s.ev.core s.ev.pick x []
       | _ => s)
    | none => s)

/-- Another device registers for group `ev.pick`, or withdraws: `ev.val` is the device, `ev.ok` a registration, `ev.data` its
operation, its element type and its list. -/
def execMemberRegistration (s : State) : Host.Outcome State Fault Refusal :=
  let g := s.ev.pick
  let d := s.ev.val.toNat
  .next (if 1024 ≤ g ∨ 2 ^ 14 ≤ d ∨ d = s.devid then s
    else
      let rest := s.members.filter (fun m => !(decide (m.group = g) && decide (m.dev = d)))
      let new : List Member := if s.ev.ok then
        [{ group := g, dev := d, op := fieldAt s.ev.data 0 1, etype := fieldAt s.ev.data 1 1, list := listOf (s.ev.data.drop 2) }] else []
      { s with members := rest ++ new }.settleGroup g)

/-- Two elements combined; floats are accumulated in FP32 (17 R370). -/
def combine2 (op etype x y : Nat) : Nat :=
  if etype = 2 then
    (if op = 0 then (x + y) % 2 ^ 32 else if op = 1 then maxLane 4 x y else minLane 4 x y)
  else if op = 0 then (roundTo (numAdd (decodeFp fp32 x) (decodeFp fp32 y) rmRne).x fp32 rmRne true 0).bits
  else (fminmax fp32 (decide (op = 1)) x y).1
/-- The combination of one element of every member in port-rank order, in the element type. -/
def combineAll (op etype : Nat) : List Nat → Nat
  | [] => 0
  | x :: l =>
    let wide (b : Nat) : Nat := if etype = 1 then b * 2 ^ 16 else b
    let r := l.foldl (fun a b => combine2 op etype a (wide b)) (wide x)
    if etype = 1 then (roundTo (decodeFp fp32 r) bf16 rmRne true 0).bits else r

/-- The bytes that the members contribute to some of this device's bytes: its own at its rank, and of every other device as
many, one device after another. -/
def ranks (list : List Nat) (dev : Nat) (own : List Byte) (others : List Byte) : List (List Byte) :=
  (list.foldl (fun (a : List (List Byte) × List Byte) d =>
    if d = dev then (a.1 ++ [own], a.2) else (a.1 ++ [a.2.take own.length], a.2.drop own.length))
    (([] : List (List Byte)), others)).1

/-- The result's bytes. -/
def reduced (op etype : Nat) (rs : List (List Byte)) (n : Nat) : List Byte :=
  let w := etypeSize etype
  ((List.range (n / w)).map (fun i => toBytes w (combineAll op etype (rs.map (fun r => ofBytes ((r.drop (w * i)).take w)))))).flatten

/-- The contributions of command `ev.pick` of the core meet those of the other members, which `ev.data` holds: the result is
written on this device, and the command completes OK. -/
def execReductionCombine (s : State) : Host.Outcome State Fault Refusal :=
  let n := s.ev.core
  let i := s.ev.pick
  .next (match s.cmdAt n i with
    | none => s
    | some k =>
      let mine := k.held.filter contrib
      let ps := k.places
      let twice : Bool := s.cores.any (fun e => (e.2.copyq.mapIdx (fun j (q : CopyCmd) => (j, q))).any (fun q =>
        !(decide (e.1 = n) && decide (q.1 = i)) && q.2.waiting && q.2.places.any (fun p => ps.contains p)))
      match ps with
      | [] => s
      | (g, q, _) :: _ =>
        let r := s.group g
        let bs := mine.map (·.2)
        if k.waiting = false ∨ r.state ≠ 2 ∨ twice = true ∨ ps.any (fun p => decide (p.1 ≠ g) || decide (p.2.1 ≠ q)) = true
            ∨ s.ev.data.length ≠ (r.list.length - 1) * bs.length ∨ bs.length % etypeSize r.etype ≠ 0 then s
        else
          if s.areaWait (ps.map (fun e => (r.base.toNat + e.2.2, 1))) then s
          else
          let out := reduced r.op r.etype (ranks r.list s.devid bs s.ev.data) bs.length
          let s := (ps.zip out).foldl (fun (s : State) e => s.vSet (r.base.toNat + e.1.2.2) 1 e.2.toNat) s
          s.setCmd n i ({ k with waiting := false, held := k.held.filter (fun e => !contrib e) }.finish 0 0 0))

/-- The switch aborts the seq of command `ev.pick` of the core: where `ev.ok`, for space, its time limit or a duplicate; else
because its group is not active. Every contribution of the seq on this device ends. -/
def execReductionAbort (s : State) : Host.Outcome State Fault Refusal :=
  .next (match s.cmdAt s.ev.core s.ev.pick with
    | none => s
    | some k =>
      match k.places with
      | [] => s
      | (g, q, _) :: _ =>
        if k.waiting = true ∧ (s.ev.ok = true ∨ (s.group g).state ≠ 2) then
          s.abortWhere (fun x => x.places.any (fun p => decide (p.1 = g) && decide (p.2.1 = q)))
        else s)

/-! ## Device registers (17 R366) -/

/-- A write to a register without behaviour of its own. -/
def execDeviceRegisterWrite (s : State) : Host.Outcome State Fault Refusal :=
  .next (match s.regStore with
    | some (x, off, v) =>
      (match s.regWrite off v with
       | .plain s' => s'.complete s.ev.core s.ev.pick x []
       | _ => s)
    | none => s)

/-! ## Resets (17 R377, R378, R391) -/

/-- HBM, CXL, host memory and other devices' memory: what a warm reset keeps. -/
def keptWarm (k : Nat) : Bool := decide (spaceOf k ≤ 5) || decide (spaceOf k = spRemote)
/-- CXL, host memory and other devices' memory: what a cold reset keeps. -/
def keptCold (k : Nat) : Bool := (decide (2 ≤ spaceOf k) && decide (spaceOf k ≤ 5)) || decide (spaceOf k = spRemote)

/-- The state after a reset that keeps some memory: everything else is as at reset but for the always-on state, what lies
outside the device, and repairs. `ev.ok` says whether the boot ROM accepts the firmware image (17 R375). -/
def State.resetWith (s : State) (keep : Nat → Bool) : State :=
  let mem := Memory.wipe s.mem (fun k => !keep k)
  let enc := s.enc.filter (fun e => keep (e.1 * 64))
  { State.reset with
    caps := s.caps
    mem := mem
    enc := enc
    boot := { mem := mem, enc := enc, cache := [] }
    bad := s.bad.filter keep
    lcstate := s.lcstate
    lmsIndex := s.lmsIndex
    scrubPend := s.scrubPend
    scrubEnd := s.scrubEnd
    rescrub := s.scrubPend.getLsbD 63
    members := s.members
    repaired := s.repaired
    firmware := s.ev.ok
    ev := s.ev
    agenda := s.agenda
    cycleLen := s.cycleLen
    hostOut := s.hostOut
    fabOut := s.fabOut }

/-- Power-on, or a host request. -/
def execColdReset (s : State) : Host.Outcome State Fault Refusal := .next (s.resetWith keptCold)
/-- A host write, or a machine check. -/
def execWarmReset (s : State) : Host.Outcome State Fault Refusal := .next (s.resetWith keptWarm)

/-- Every memory that a cold reset wipes is wiped, and nothing else (17 R376). -/
def State.wipeMemories (s : State) : State :=
  let mem := Memory.wipe s.mem (fun k => !keptCold k)
  let enc := s.enc.filter (fun e => keptCold (e.1 * 64))
  { s with
    mem := mem
    enc := enc
    boot := { mem := mem, enc := enc, cache := [] }
    cores := s.cores.map (fun (e : Nat × Core) => (e.1, { e.2 with icache := [], code := none }))
    bad := s.bad.filter keptCold
    cache := []
    stale := [] }

/-- A write of LCSTATE: the next state's code, and every memory is wiped; any other value is ignored. -/
def execLcstateWrite (s : State) : Host.Outcome State Fault Refusal :=
  .next (match s.regStore with
    | some (x, off, v) =>
      (match s.regWrite off v with
       | .lcstate =>
         if v.toNat % 4 = s.lcstate.toNat + 1 then ({ s.wipeMemories with lcstate := s.lcstate + 1 } : State).complete s.ev.core s.ev.pick x []
         else s.complete s.ev.core s.ev.pick x []
       | _ => s)
    | none => s)

/-! ## Isolation and repair (17 R381, 01 R11) -/

/-- The cores of a supergroup. -/
def coresOf (sg : Nat) : List Nat := (List.range 64).map (64 * sg + ·)

/-- A supergroup may be isolated: no core assigned or held, no queue or sequencer of its slice allocated. -/
def State.mayIsolate (s : State) (sg : Nat) : Bool :=
  !(coresOf sg).any (fun m => (s.ownerOfCore m).isSome || s.held.any (fun h => !h.page && decide (h.num = m)))
    && !s.queues.any (fun e => e.2.live && decide (e.1 / 1024 = sg))
    && !s.seqrs.any (fun e => e.2.alloc && decide (e.1 / 256 = s.devid * 64 + sg))

/-- A write of ISOLATE with bit 63 set begins the isolation of a supergroup of the writing core's die (log entry 12), or
sets bit 62. -/
def execIsolateWrite (s : State) : Host.Outcome State Fault Refusal :=
  .next (match s.regStore with
    | some (x, off, v) =>
      (match s.regWrite off v with
       | .isolate =>
         let sg := dieOf s.ev.core * 32 + (v.extractLsb' 6 5).toNat
         let num := v &&& 0x7C0
         let s' : State :=
           if v.getLsbD 63 = false then s
           else if s.mayIsolate sg && !s.isolated.contains sg then
             { s with isolate := 0x8000_0000_0000_0000 ||| num, isolated := s.isolated ++ [sg] }
           else { s with isolate := (s.isolate &&& 0x8000_0000_0000_0000) ||| 0x4000_0000_0000_0000 ||| num }
         s'.complete s.ev.core s.ev.pick x []
       | _ => s)
    | none => s)

/-- The isolated supergroup `ev.pick` is reset: its scratchpads, L1s, L2 slice and registers are wiped, and its cores stay in
reset. Everything else is kept (17 Table 17-4): a line of its slice that another supergroup's L1 holds, and the scrub engine, which is
the device's (log entry 56). -/
def execSupergroupReset (s : State) : Host.Outcome State Fault Refusal :=
  let sg := s.ev.pick
  let mine (k : Nat) : Bool := decide (spaceOf k = spSpad) && decide (offOf k / 2 ^ 22 = sg)
  .next (if s.isolated.contains sg then
    { (coresOf sg).foldl (fun (s : State) m => s.setCore m { Core.reset with run := .inReset }) s with
      mem := Memory.wipe s.mem mine
      bad := s.bad.filter (fun k => !mine k)
      cache := s.cache.filter (fun e => match e.2.l1 with
        | some m => decide (sgOf m ≠ sg)
        | none => decide (s.homeSlice (e.1 * 64) ≠ sg))
      stale := s.stale.filter (fun v => decide (s.homeSlice (v.line * 64) ≠ sg))
      tiles := FMap.erase s.tiles sg }
    else s)

/-- The isolated supergroup `ev.pick` returns to service on a spare of its die, with the same logical numbers. -/
def execSupergroupRepair (s : State) : Host.Outcome State Fault Refusal :=
  let sg := s.ev.pick
  let used := (s.repaired.filter (fun x => decide (x / 32 = sg / 32))).length
  .next (if s.isolated.contains sg && (coresOf sg).all (fun m => decide ((s.coreAt m).run = .inReset)) && decide (used < 2) then
    let s := { s with isolated := s.isolated.filter (· ≠ sg), repaired := s.repaired ++ [sg] }
    let s := (coresOf sg).foldl (fun (s : State) m => s.modCore m (fun c => { c with run := .running })) s
    if s.isolated.isEmpty then { s with isolate := s.isolate &&& 0x7FFF_FFFF_FFFF_FFFF } else s
    else s)

/-! ## The host link (17 R367) -/

/-- The host as an agent: machine level, no context. -/
def hostAgent : Core := { Core.reset with pl := 2 }

/-- A device register or a queue status as the host reads it; none where it may not. -/
def State.hostReg (s : State) (off : Nat) : Option W64 :=
  if inQstat off then some (s.qstat hostAgent off)
  else
    let o := off / 8 * 8
    if o = 0x1_0000_0100 ∨ o = 0x2_0000_0000 ∨ o = 0x2_0000_0008 ∨ o = 0x2_0000_0010 ∨ o = 0x3_0000_0000 then some (s.devLoad off)
    else none

/-- The checks of a byte of a host access: the format windows are reached too, as the bytes they store (17 R367). -/
def State.hostCheck (s : State) (use : Use) (a : W64) : Option (BitVec 8) :=
  match s.window a with
  | .spad fmt _ _ off =>
    if s.absentUnit a then some cUnitAbsent else if fmt = 7 ∧ 0x800 ≤ off then some cBadAddress else none
  | _ => s.laneCheck hostAgent use a 1

/-- One byte of memory as the host reads it. -/
def State.hostByte (s : State) (a : W64) : Option Byte :=
  match s.window a with
  | .gen _ _ => some 0
  | _ =>
    if (s.hostCheck .load a).isSome then none
    else match s.readLocs (s.locsOf a 1) .bypass none with
      | .ok [b] _ => some b
      | _ => none

/-- Addresses of `n` bytes. -/
def addrsFrom (a : W64) (n : Nat) : List W64 := (List.range n).map (fun i => a + BitVec.ofNat 64 i)

/-- The host reads `ev.pick` bytes at `ev.val`: bytes, or an error status. An access to a place that waits waits. -/
def execHostRead (s : State) : Host.Outcome State Fault Refusal :=
  let a := s.ev.val
  let n := s.ev.pick
  .next (match s.window a with
    | .regs off =>
      { s with hostOut := if n = 8 ∧ off % 8 = 0 then (s.hostReg off).map (fun (v : W64) => toBytes 8 v.toNat) else none }
    | _ =>
      if (s.locsOf a n).any s.blockedPlace then s
      else
        let s := s.dropVisitor (s.locsOf a n)
        { s with hostOut := (addrsFrom a n).foldr (fun x (l : Option (List Byte)) =>
            match s.hostByte x, l with | some b, some l => some (b :: l) | _, _ => none) (some []) })

/-- A host write to one line: discarded where it cannot be made. -/
def State.hostPut (s : State) (a : W64) (bs : List Byte) : State :=
  match s.window a with
  | .gen _ _ | .regs _ | .none => s
  | _ =>
    if (addrsFrom a bs.length).any (fun x => (s.hostCheck .store x).isSome) then s
    else match s.writeLocs (s.locsOf a bs.length) bs .bypass none with
      | .ok _ s' => s'.dropVisitor (s.locsOf a bs.length)
      | _ => s

/-- The host writes `ev.data` at `ev.val`. -/
def execHostWrite (s : State) : Host.Outcome State Fault Refusal :=
  let a := s.ev.val
  let bs := s.ev.data
  .next (if (s.locsOf a bs.length).any s.blockedPlace then s
    else (lineRuns a.toNat bs (bs.length + 1)).foldl (fun (s : State) r => s.hostPut (BitVec.ofNat 64 r.1) r.2) s)

/-! ## The scrub engine (17 R379, R380, R390) -/

/-- Held resources that a MODE 0 scrub begun after their release has now passed are free. -/
def State.freeHeld (s : State) : State :=
  let lin (x : BitVec 56) : Option (Bool × Nat) := s.linear (x.setWidth 64)
  match lin (s.scrubPend.extractLsb' 0 56), lin s.scrubCur, lin (s.scrubCur - 1) with
  | some (p, lo), cur, some (_, last) =>
    let hi := match cur with | some (p', x) => if p' = p then x else last + 1 | none => last + 1
    let size := if p then 2 ^ 21 else 2 ^ 16
    let start (h : HeldRes) : Nat := if h.page then h.num else h.num * 2 ^ 16
    { s with held := s.held.filter (fun (h : HeldRes) =>
        !(h.freeable && decide (h.page = p) && decide (lo ≤ start h) && decide (start h + size ≤ hi))) }
  | _, _, _ => s

/-- CUR passes a line. -/
def State.scrubPass (s : State) : State :=
  let s := { s with scrubCur := s.scrubCur + 64 }
  let s := if s.scrubMode = 0 then s.freeHeld else s
  if s.scrubCur = s.scrubEnd then { s with scrubBusy := false, rescrub := false, scrubPend := s.scrubPend &&& 0x7FFF_FFFF_FFFF_FFFF } else s

/-- The scrub engine treats the line at CUR: its copies go without write-back, MODE 0 writes zeros, and CUR passes it. A
paged line without a valid leaf stops the scrub. -/
def execScrubLine (s : State) : Host.Outcome State Fault Refusal :=
  let a : W64 := s.scrubCur.setWidth 64
  let n := a.toNat
  let zero : Bool := decide (s.scrubMode = 0)
  .next (if s.scrubBusy = false then s
    else match s.window a with
      | .paged =>
        if s.blockedPlace (keyOf spVirt n) then s
        else (match s.walk n with
          | .ok pa =>
            let s := { s with cache := FMap.erase s.cache (n / 64), stale := s.stale.filter (fun v => decide (v.line ≠ n / 64)) }
            let s := if zero then
                s.writeLine n { pa := pa, data := 0, dirty := false, hint := .bypass, l1 := none, bad := 0 }
              else s
            s.scrubPass
          | _ => { s with scrubBusy := false, scrubErr := true })
      | .spad _ _ _ _ =>
        let ks := (s.locsOf a 64).map s.directKey
        (if zero then
          { s with mem := Memory.writeAll s.mem ks (List.replicate 64 0), bad := s.bad.filter (fun k => !ks.contains k) } else s).scrubPass
      | _ => { s with scrubBusy := false, scrubErr := true })

/-! ## The clock (17 R382) -/

/-- Coolant above the limit: a cycle takes `ev.pick` quarter nanoseconds from now on, more than before. -/
def execClockStepDown (s : State) : Host.Outcome State Fault Refusal :=
  .next { s with cycleLen := max s.ev.pick (s.cycleLen + 1) }
/-- Coolant within the limit: the clock recovers. -/
def execCoolantBelowLimit (s : State) : Host.Outcome State Fault Refusal := .next { s with cycleLen := 1 }

/-! ## Accesses of other devices (17 R369, 07 R190) -/

/-- What reaches the device through an edge gateway: source device × 2^16 + tag in `ev.pick`, the link in `ev.core`, the
address in `ev.val`; in `ev.data` the operation (0 load, 1 store, 2 + k an atomic of order k in Table 3-9), the size, and
the operands. `ev.ok` says that it is a retransmission. -/
def execFabricAccess (s : State) : Host.Outcome State Fault Refusal :=
  let a := s.ev.val
  let src := s.ev.pick / 2 ^ 16
  let tag := s.ev.pick % 2 ^ 16
  let link := s.ev.core
  let op := fieldAt s.ev.data 0 1
  let size := fieldAt s.ev.data 1 1
  let arg := s.ev.data.drop 2
  let here : Bool := match s.window a with
    | .spad _ dev core _ => decide (dev = s.devid) && decide (core < s.ncores)
    | .paged => (s.lineDev a.toNat).isNone
    | _ => false
  let locs := s.locsOf a size
  .next (if here = false ∨ 64 < size ∨ size = 0 ∨ a.toNat % size ≠ 0 then { s with fabOut := none }
    else if locs.any s.blockedPlace then s
    else if op = 0 then
      (match s.readLocs locs .bypass none with
       | .ok bs _ => { s with fabOut := some bs }
       | _ => { s with fabOut := none })
    else if op = 1 then
      (match s.writeLocs locs (arg.take size) .bypass none with
       | .ok _ s' => { s' with fabOut := some [] }
       | _ => { s with fabOut := none })
    else if size ≠ 8 ∨ 11 < op then { s with fabOut := none }
    else
      match s.replayCache.find? (fun e => decide (e.1 = src) && decide (e.2.1 = link) && decide (e.2.2.1 = tag)) with
      | some (_, _, _, old) => { s with fabOut := some (toBytes 8 old.toNat) }
      | none =>
        if s.ev.ok then { s with fabOut := none }
        else
          match s.readLocs locs .bypass none with
          | .ok bs _ =>
            let old : W64 := BitVec.ofNat 64 (ofBytes bs)
            let new := amoNew (op - 2) old (BitVec.ofNat 64 (fieldAt arg 0 8)) (BitVec.ofNat 64 (fieldAt arg 8 8))
            (match s.writeLocs locs (toBytes 8 new.toNat) .bypass none with
             | .ok _ s' =>
               let mine := s'.replayCache.filter (fun e => decide (e.1 = src) && decide (e.2.1 = link))
               let rest := s'.replayCache.filter (fun e => !(decide (e.1 = src) && decide (e.2.1 = link)))
               { s'.recall locs with
                         replayCache := rest ++ (if 64 ≤ mine.length then mine.drop 1 else mine) ++ [(src, link, tag, old)]
                         fabOut := some (toBytes 8 old.toNat) }
             | _ => { s with fabOut := none })
          | _ => { s with fabOut := none })

end Sys2Proof.Machine
end

