-- ==== Sys2Proof/Machine/ScalarFloat.lean ====
section
/-!
DEFINITION. The scalar float words (05 R114-R130).
-/
namespace Sys2Proof.Machine

/-- A rounded result of an operation: its bits and every flag it sets. -/
def roundExact (e : Exact) (f : Fmt) (rm : Nat) : Nat × BitVec 5 :=
  let r := roundTo e.x f rm true 0
  (r.bits, e.flags ||| r.flags)

/-- A fixed-latency float word of two scalar sources. -/
def flt2 (i : Instr) (d a b : BitVec 5) (lat : Nat) (f : Nat → Nat → W64 → Nat × BitVec 5) (s : State) :
    Host.Outcome State Fault Refusal :=
  runWord i s (fun s =>
    let r := f (s.rs a).toNat (s.rs b).toNat s.cur.t.rmode
    .ok (s.outF d r.1 r.2 lat))

/-- An arithmetic word (05 R118). -/
def arith2 (p : Prec) (r : BitVec 3) (op : Num → Num → Nat → Exact) (x y : Nat) (rmode : W64) : Nat × BitVec 5 :=
  let rm := plainMode (roundField rmode r)
  roundExact (op (decodeFp (fmtOf p) x) (decodeFp (fmtOf p) y) rm) (fmtOf p) rm

def execFadd (d a b : BitVec 5) (p : Prec) (r : BitVec 3) (s : State) := flt2 (.fadd d a b p r) d a b 4 (arith2 p r numAdd) s
def execFsub (d a b : BitVec 5) (p : Prec) (r : BitVec 3) (s : State) :=
  flt2 (.fsub d a b p r) d a b 4 (arith2 p r (fun x y rm => numAdd x y.neg rm)) s
def execFmul (d a b : BitVec 5) (p : Prec) (r : BitVec 3) (s : State) :=
  flt2 (.fmul d a b p r) d a b 4 (arith2 p r (fun x y _ => numMul x y)) s

/-- The cycles that a float divide or square root takes (05 Table 5-17): 4 with a NaN, infinite or zero operand. -/
def fdivCycles (p : Prec) (root : Bool) (xs : List Nat) : Nat :=
  if xs.any (fun x => match decodeFp (fmtOf p) x with | .fin _ m _ => decide (m = 0) | _ => true) then 4
  else match p with
    | .f64 => if root then 26 else 22
    | .f32 => if root then 14 else 12
    | _ => if root then 9 else 8

/-- A float divide or square root goes to the divider (05 R130). -/
def fdivWord (i : Instr) (d : BitVec 5) (p : Prec) (root : Bool) (xs : State → List Nat) (f : State → Nat × BitVec 5)
    (s : State) : Host.Outcome State Fault Refusal :=
  runWord i s (fun s =>
    if s.cur.t.div.isSome then .wait s
    else .ok (s.modCur (fun c => c.divide d (BitVec.ofNat 64 (f s).1) (f s).2 (s.cycle + fdivCycles p root (xs s)) true)))

def execFdiv (d a b : BitVec 5) (p : Prec) (r : BitVec 3) (s : State) :=
  fdivWord (.fdiv d a b p r) d p false (fun s => [(s.rs a).toNat, (s.rs b).toNat])
    (fun s => arith2 p r (fun x y _ => numDiv x y) (s.rs a).toNat (s.rs b).toNat s.cur.t.rmode) s
def execFsqrt (d a : BitVec 5) (p : Prec) (r : BitVec 3) (s : State) :=
  fdivWord (.fsqrt d a p r) d p true (fun s => [(s.rs a).toNat])
    (fun s => roundExact (numSqrt (decodeFp (fmtOf p) (s.rs a).toNat)) (fmtOf p) (plainMode (roundField s.cur.t.rmode r))) s

/-- A fused word (05 R120): the addend and the whole may be negated. An exact zero is formed, then negated. -/
def fusedWord (i : Instr) (d a b : BitVec 5) (p : Prec) (r : BitVec 3) (minus whole : Bool) (s : State) :
    Host.Outcome State Fault Refusal :=
  runWord i s (fun s =>
    let rm := plainMode (roundField s.cur.t.rmode r)
    let z := decodeFp (fmtOf p) (s.rs d).toNat
    let e := numFma (decodeFp (fmtOf p) (s.rs a).toNat) (decodeFp (fmtOf p) (s.rs b).toNat)
      (if minus then z.neg else z) rm
    let y := roundExact (if whole then { e with x := e.x.neg } else e) (fmtOf p) rm
    .ok (s.outF d y.1 y.2 4))

def execFma (d a b : BitVec 5) (p : Prec) (r : BitVec 3) (s : State) := fusedWord (.fma d a b p r) d a b p r false false s
def execFms (d a b : BitVec 5) (p : Prec) (r : BitVec 3) (s : State) := fusedWord (.fms d a b p r) d a b p r true false s
def execFnma (d a b : BitVec 5) (p : Prec) (r : BitVec 3) (s : State) := fusedWord (.fnma d a b p r) d a b p r false true s
def execFnms (d a b : BitVec 5) (p : Prec) (r : BitVec 3) (s : State) := fusedWord (.fnms d a b p r) d a b p r true true s

def execFmin (d a b : BitVec 5) (p : Prec) (s : State) :=
  flt2 (.fmin d a b p) d a b 2 (fun x y _ => fminmax (fmtOf p) false x y) s
def execFmax (d a b : BitVec 5) (p : Prec) (s : State) :=
  flt2 (.fmax d a b p) d a b 2 (fun x y _ => fminmax (fmtOf p) true x y) s

/-- The relation mask of `fcmp` (05 R122). -/
def fcmpMask (f : Fmt) (x y : Nat) : Nat × BitVec 5 :=
  let a := decodeFp f x
  let b := decodeFp f y
  if a.isNan || b.isNan then (8, nanFlags [a, b])
  else ((if numLt a b then 1 else if numLt b a then 4 else 2), 0)

def execFcmp (d a b : BitVec 5) (p : Prec) (s : State) :=
  flt2 (.fcmp d a b p) d a b 2 (fun x y _ => fcmpMask (fmtOf p) x y) s

/-- The class mask of `fclass` (05 R123). -/
def fclassMask (f : Fmt) (x : Nat) : Nat :=
  let neg := x / f.sign % 2 = 1
  let e := x % f.sign / 2 ^ f.m
  let m := x % 2 ^ f.m
  if e = 2 ^ f.e - 1 then
    (if m = 0 then (if neg then 1 else 2 ^ 7) else if m < 2 ^ (f.m - 1) then 2 ^ 8 else 2 ^ 9)
  else if e = 0 then
    (if m = 0 then (if neg then 2 ^ 3 else 2 ^ 4) else if neg then 2 ^ 2 else 2 ^ 5)
  else if neg then 2 ^ 1 else 2 ^ 6

def execFclass (d a : BitVec 5) (p : Prec) (s : State) : Host.Outcome State Fault Refusal :=
  runWord (.fclass d a p) s (fun s => .ok (s.outS d (BitVec.ofNat 64 (fclassMask (fmtOf p) (s.rs a).toNat)) 2))

/-- Sign injection (05 R124). -/
def signWord (i : Instr) (d a b : BitVec 5) (p : Prec) (f : Nat → Nat → Nat) (s : State) :
    Host.Outcome State Fault Refusal :=
  alu2 i d a b 2 (fun x y =>
    let sgn := (fmtOf p).sign
    BitVec.ofNat 64 (x.toNat % sgn + sgn * (f (x.toNat / sgn % 2) (y.toNat / sgn % 2) % 2))) s

def execFsgnj (d a b : BitVec 5) (p : Prec) (s : State) := signWord (.fsgnj d a b p) d a b p (fun _ y => y) s
def execFsgnn (d a b : BitVec 5) (p : Prec) (s : State) := signWord (.fsgnn d a b p) d a b p (fun _ y => y + 1) s
def execFsgnx (d a b : BitVec 5) (p : Prec) (s : State) := signWord (.fsgnx d a b p) d a b p (fun x y => x + y) s

/-- `fcvt.if` (05 R125). -/
def execFcvtIf (d a : BitVec 5) (p : Prec) (r : BitVec 3) (s : State) : Host.Outcome State Fault Refusal :=
  runWord (.fcvtIf d a p r) s (fun s =>
    let y := roundTo (numOfInt (s.rs a).toInt) (fmtOf p) (plainMode (roundField s.cur.t.rmode r)) true 0
    .ok (s.outF d y.bits y.flags 3))

/-- `fcvt.fi` (05 R126). -/
def execFcvtFi (d a : BitVec 5) (p : Prec) (r : BitVec 3) (s : State) : Host.Outcome State Fault Refusal :=
  runWord (.fcvtFi d a p r) s (fun s =>
    let y := toIntFmt (decodeFp (fmtOf p) (s.rs a).toNat) 64 (plainMode (roundField s.cur.t.rmode r)) 0
    .ok (s.outF d y.bits y.flags 3))

/-- `fcvt.ff` (05 R127, R128): `sr` only into a narrower significand. -/
def execFcvtFf (d a : BitVec 5) (v : BitVec 1) (e p : Prec) (r : BitVec 3) (s : State) :
    Host.Outcome State Fault Refusal :=
  runWord (.fcvtFf d a v e p r) s (fun s =>
    let m := roundField s.cur.t.rmode r
    let rm := if sigWidth p < sigWidth e then m else plainMode m
    let y := roundTo (decodeFp (fmtOf e) (s.rs a).toNat) (fmtOf p) rm (decide (v = 1)) (s.cur.srWord 0)
    let n := if y.drew then 1 else 0
    match s.srFault n with
    | some (code, tval) => .trap code tval
    | none => .ok ((s.outF d y.bits y.flags 3).modCur (fun c => c.drawn n)))

/-- `fmvx` (05 R129). -/
def execFmvx (d a b : BitVec 5) (p : Prec) (s : State) :=
  alu2 (.fmvx d a b p) d a b 2 (fun x y =>
    let w := (fmtOf p).width
    BitVec.ofNat 64 (x.toNat / 2 ^ (y.toNat % (64 / w) * w) % 2 ^ w)) s

end Sys2Proof.Machine
end

