-- ==== Sys2Proof/Machine/Vector.lean ====
section
/-!
DEFINITION. The A-class vector words (13 R306-R318).
-/
namespace Sys2Proof.Machine

/-- What a lane operation is computed in: the slot's type, its lane width and the rounding mode. -/
structure VEnv where
  ty : Nat
  w : Nat
  rm : Nat
  deriving DecidableEq, Repr

def VEnv.float (e : VEnv) : Bool := decide (4 ≤ e.ty) && decide (e.ty ≤ 7)
def VEnv.fmt (e : VEnv) : Fmt := fmtOfType e.ty
def venv (c : Core) (t : BitVec 2) : VEnv :=
  { ty := slotType c t, w := widthOf (slotType c t), rm := plainMode (modeOf c.t.rmode) }

/-- The bits that a predicated word of a slot writes: all where ZERO is 1 (13 R302). -/
def activeMask (c : Core) (t : BitVec 2) (pred : W64) : Option W512 :=
  if slotZero c t || decide (predMask (venv c t).w pred = BitVec.allOnes 512) then none
  else some (predMask (venv c t).w pred)

/-- The latency of the arithmetic words (03 Table 3-4). -/
def arithLat (ty : Nat) : Nat := if ty ≤ 3 then 2 else if ty = 7 then 6 else 4

/-- A lane result and its flags. -/
abbrev LaneRes := Nat × BitVec 5

/-- A predicated lane word: `f` computes lane `i` from its sources. -/
def vlaneWord (i : Instr) (d : BitVec 5) (p : BitVec 3) (t : BitVec 2) (lat : Nat → Nat)
    (f : VEnv → (BitVec 5 → W512) → Core → Nat → LaneRes) (s : State) : Host.Outcome State Fault Refusal :=
  vecWord i s (fun v s =>
    let c := s.cur
    let e := venv c t
    let pred := c.rp p
    let r := (List.range (64 / e.w)).map (fun k => if pred.getLsbD k then f e v c k else (0, 0))
    s.vOut d (ofLanes e.w (r.map (·.1))) (activeMask c t pred) (lat e.ty)
      (if e.float then some (r.foldl (fun a x => a ||| x.2) 0) else none))

/-- A lane word of two vector sources. -/
def vlane2 (i : Instr) (d a b : BitVec 5) (p : BitVec 3) (t : BitVec 2) (lat : Nat → Nat) (f : VEnv → Nat → Nat → LaneRes)
    (s : State) : Host.Outcome State Fault Refusal :=
  vlaneWord i d p t lat (fun e v _ k => f e (laneAt e.w (v a) k) (laneAt e.w (v b) k)) s
/-- A lane word of one vector source. -/
def vlane1 (i : Instr) (d a : BitVec 5) (p : BitVec 3) (t : BitVec 2) (lat : Nat → Nat) (f : VEnv → Nat → LaneRes)
    (s : State) : Host.Outcome State Fault Refusal :=
  vlaneWord i d p t lat (fun e v _ k => f e (laneAt e.w (v a) k)) s
/-- A lane word of two vector sources and its destination. -/
def vlane3 (i : Instr) (d a b : BitVec 5) (p : BitVec 3) (t : BitVec 2) (lat : Nat → Nat)
    (f : VEnv → Nat → Nat → Nat → LaneRes) (s : State) : Host.Outcome State Fault Refusal :=
  vlaneWord i d p t lat (fun e v _ k => f e (laneAt e.w (v a) k) (laneAt e.w (v b) k) (laneAt e.w (v d) k)) s

/-! ## Arithmetic (13 R307, R308) -/

/-- An integer lane wraps (13 R303). -/
def wrapLane (w : Nat) (x : Int) : LaneRes := (wrapInt (8 * w) x, 0)
def sLane (w x : Nat) : Int := sxBits (8 * w) x
/-- An arithmetic lane operation: on integers, or on exact values rounded once. -/
def arithLane (fi : Int → Int → Int) (ff : Num → Num → Nat → Exact) (e : VEnv) (x y : Nat) : LaneRes :=
  if e.float then roundExact (ff (decodeFp e.fmt x) (decodeFp e.fmt y) e.rm) e.fmt e.rm
  else wrapLane e.w (fi (sLane e.w x) (sLane e.w y))
/-- A fused lane operation: the addend and the whole may be negated. -/
def fusedLane (minus whole : Bool) (e : VEnv) (x y z : Nat) : LaneRes :=
  if e.float then
    let c := decodeFp e.fmt z
    let r := numFma (decodeFp e.fmt x) (decodeFp e.fmt y) (if minus then c.neg else c) e.rm
    roundExact (if whole then { r with x := r.x.neg } else r) e.fmt e.rm
  else
    let m := sLane e.w x * sLane e.w y + (if minus then -(sLane e.w z) else sLane e.w z)
    wrapLane e.w (if whole then -m else m)
/-- The lesser or greater lane. -/
def pickLane (wantMax : Bool) (e : VEnv) (x y : Nat) : LaneRes :=
  if e.float then fminmax e.fmt wantMax x y else (if wantMax then maxLane e.w x y else minLane e.w x y, 0)

def execVadd (d a b : BitVec 5) (p : BitVec 3) (t : BitVec 2) (s : State) :=
  vlane2 (.vadd d a b p t) d a b p t arithLat (arithLane (· + ·) numAdd) s
def execVsub (d a b : BitVec 5) (p : BitVec 3) (t : BitVec 2) (s : State) :=
  vlane2 (.vsub d a b p t) d a b p t arithLat (arithLane (· - ·) (fun x y rm => numAdd x y.neg rm)) s
def execVmul (d a b : BitVec 5) (p : BitVec 3) (t : BitVec 2) (s : State) :=
  vlane2 (.vmul d a b p t) d a b p t arithLat (arithLane (· * ·) (fun x y _ => numMul x y)) s
def execVfma (d a b : BitVec 5) (p : BitVec 3) (t : BitVec 2) (s : State) :=
  vlane3 (.vfma d a b p t) d a b p t arithLat (fusedLane false false) s
def execVfms (d a b : BitVec 5) (p : BitVec 3) (t : BitVec 2) (s : State) :=
  vlane3 (.vfms d a b p t) d a b p t arithLat (fusedLane true false) s
def execVfnma (d a b : BitVec 5) (p : BitVec 3) (t : BitVec 2) (s : State) :=
  vlane3 (.vfnma d a b p t) d a b p t arithLat (fusedLane false true) s
def execVmin (d a b : BitVec 5) (p : BitVec 3) (t : BitVec 2) (s : State) :=
  vlane2 (.vmin d a b p t) d a b p t arithLat (pickLane false) s
def execVmax (d a b : BitVec 5) (p : BitVec 3) (t : BitVec 2) (s : State) :=
  vlane2 (.vmax d a b p t) d a b p t arithLat (pickLane true) s
def execVabs (d a : BitVec 5) (p : BitVec 3) (t : BitVec 2) (s : State) :=
  vlane1 (.vabs d a p t) d a p t arithLat (fun e x =>
    if e.float then (x % e.fmt.sign, 0) else wrapLane e.w (sLane e.w x).natAbs) s
def execVneg (d a : BitVec 5) (p : BitVec 3) (t : BitVec 2) (s : State) :=
  vlane1 (.vneg d a p t) d a p t arithLat (fun e x =>
    if e.float then (x % e.fmt.sign + e.fmt.sign * ((x / e.fmt.sign + 1) % 2), 0) else wrapLane e.w (-(sLane e.w x))) s

/-- 1 / a (13 R308). -/
def rcpLane (e : VEnv) (x : Nat) : LaneRes := roundExact (numDiv (.fin false 1 1) (decodeFp e.fmt x)) e.fmt e.rm
/-- 1 / √a (13 R308). -/
def rsqrtLane (e : VEnv) (x : Nat) : LaneRes :=
  roundExact (match decodeFp e.fmt x with
    | .nan s => quietNan (if s then flNV else 0)
    | .inf n => if n then quietNan flNV else { x := .fin false 0 1, flags := 0 }
    | .fin n a b =>
      if a = 0 then { x := .inf n, flags := flDZ }
      else if n then quietNan flNV
      else { x := sqrtSticky false b a (64 + Nat.log2 a), flags := 0 }) e.fmt e.rm
/-- 2^a (13 R308). -/
def exp2Lane (e : VEnv) (x : Nat) : LaneRes :=
  match decodeFp e.fmt x with
  | .nan s => (e.fmt.nan, if s then flNV else 0)
  | .inf n => (if n then 0 else e.fmt.inf, 0)
  | .fin n a b => let r := roundExp2 n a b e.fmt e.rm x; (r.bits, r.flags)

def lat6 (_ : Nat) : Nat := 6
def lat2 (_ : Nat) : Nat := 2
def lat3 (_ : Nat) : Nat := 3
def lat4 (_ : Nat) : Nat := 4

def execVrcp (d a : BitVec 5) (p : BitVec 3) (t : BitVec 2) (s : State) := vlane1 (.vrcp d a p t) d a p t lat6 rcpLane s
def execVrsqrt (d a : BitVec 5) (p : BitVec 3) (t : BitVec 2) (s : State) :=
  vlane1 (.vrsqrt d a p t) d a p t lat6 rsqrtLane s
def execVexp2 (d a : BitVec 5) (p : BitVec 3) (t : BitVec 2) (s : State) :=
  vlane1 (.vexp2 d a p t) d a p t lat6 exp2Lane s

/-! ## Logic and shifts (13 R309) -/

def bitLane (f : Nat → Nat → Nat) (e : VEnv) (x y : Nat) : LaneRes := (f x y % 2 ^ (8 * e.w), 0)
def execVand (d a b : BitVec 5) (p : BitVec 3) (t : BitVec 2) (s : State) :=
  vlane2 (.vand d a b p t) d a b p t lat2 (bitLane (· &&& ·)) s
def execVor (d a b : BitVec 5) (p : BitVec 3) (t : BitVec 2) (s : State) :=
  vlane2 (.vor d a b p t) d a b p t lat2 (bitLane (· ||| ·)) s
def execVxor (d a b : BitVec 5) (p : BitVec 3) (t : BitVec 2) (s : State) :=
  vlane2 (.vxor d a b p t) d a b p t lat2 (bitLane (· ^^^ ·)) s
def execVandn (d a b : BitVec 5) (p : BitVec 3) (t : BitVec 2) (s : State) :=
  vlane2 (.vandn d a b p t) d a b p t lat2 (fun e x y => bitLane (fun x y => x &&& (2 ^ (8 * e.w) - 1 - y)) e x y) s

/-- The shifts of a lane by `k` (04 R86). -/
def shlLane (e : VEnv) (x k : Nat) : LaneRes := (if 8 * e.w ≤ k then 0 else x * 2 ^ k % 2 ^ (8 * e.w), 0)
def shrLane (e : VEnv) (x k : Nat) : LaneRes := (if 8 * e.w ≤ k then 0 else x / 2 ^ k, 0)
def sraLane (e : VEnv) (x k : Nat) : LaneRes := wrapLane e.w (sLane e.w x / (2 ^ (min k (8 * e.w)) : Nat))

def execVshl (d a b : BitVec 5) (p : BitVec 3) (t : BitVec 2) (s : State) :=
  vlane2 (.vshl d a b p t) d a b p t lat2 (fun e x y => shlLane e x (y % 256)) s
def execVshr (d a b : BitVec 5) (p : BitVec 3) (t : BitVec 2) (s : State) :=
  vlane2 (.vshr d a b p t) d a b p t lat2 (fun e x y => shrLane e x (y % 256)) s
def execVsra (d a b : BitVec 5) (p : BitVec 3) (t : BitVec 2) (s : State) :=
  vlane2 (.vsra d a b p t) d a b p t lat2 (fun e x y => sraLane e x (y % 256)) s
def execVshli (d a k : BitVec 5) (p : BitVec 3) (t : BitVec 2) (s : State) :=
  vlane1 (.vshli d a k p t) d a p t lat2 (fun e x => shlLane e x k.toNat) s
def execVshri (d a k : BitVec 5) (p : BitVec 3) (t : BitVec 2) (s : State) :=
  vlane1 (.vshri d a k p t) d a p t lat2 (fun e x => shrLane e x k.toNat) s
def execVsrai (d a k : BitVec 5) (p : BitVec 3) (t : BitVec 2) (s : State) :=
  vlane1 (.vsrai d a k p t) d a p t lat2 (fun e x => sraLane e x k.toNat) s

/-! ## Compares, select, permute (13 R310, R311) -/

/-- The relation of a compare: integers signed, floats with unordered pairs false. -/
inductive VRel where
  | eq | ne | lt | le
  deriving DecidableEq, Repr
def relLane (r : VRel) (e : VEnv) (x y : Nat) : Bool × BitVec 5 :=
  if e.float then
    let a := decodeFp e.fmt x
    let b := decodeFp e.fmt y
    if a.isNan || b.isNan then (decide (r = .ne), nanFlags [a, b])
    else ((match r with
      | .eq => !numLt a b && !numLt b a
      | .ne => numLt a b || numLt b a
      | .lt => numLt a b
      | .le => !numLt b a), 0)
  else
    let a := sLane e.w x
    let b := sLane e.w y
    ((match r with | .eq => decide (a = b) | .ne => decide (a ≠ b) | .lt => decide (a < b) | .le => decide (a ≤ b)), 0)

/-- The bits of a list of Booleans, the first lowest. -/
def ofBits : List Bool → Nat
  | [] => 0
  | b :: l => (if b then 1 else 0) + 2 * ofBits l

/-- A vector compare: bits 0 to n - 1 of the predicate by lane, the rest 0; inactive bits follow ZERO. -/
def vcmpWord (i : Instr) (r : VRel) (q : BitVec 3) (a b : BitVec 5) (p : BitVec 3) (t : BitVec 2) (s : State) :
    Host.Outcome State Fault Refusal :=
  vecWord i s (fun v s =>
    let c := s.cur
    let e := venv c t
    let n := 64 / e.w
    let pred := c.rp p
    let l := (List.range n).map (fun k =>
      if pred.getLsbD k then relLane r e (laneAt e.w (v a) k) (laneAt e.w (v b) k) else (false, 0))
    let fl := l.foldl (fun x y => x ||| y.2) 0
    let keep := ofBits ((List.range n).map (fun k => !pred.getLsbD k))
    let m : Option W512 := if slotZero c t || decide (keep = 0) then none else some (BitVec.ofNat 512 (2 ^ 64 - 1 - keep))
    .ok (s.modCur (fun c =>
      let c := if e.float then c.raise fl 2 else c
      c.outMask .p q.toNat (BitVec.ofNat 512 (ofBits (l.map (·.1)))) m 2)))

def execVceq (q : BitVec 3) (a b : BitVec 5) (p : BitVec 3) (t : BitVec 2) (s : State) :=
  vcmpWord (.vceq q a b p t) .eq q a b p t s
def execVcne (q : BitVec 3) (a b : BitVec 5) (p : BitVec 3) (t : BitVec 2) (s : State) :=
  vcmpWord (.vcne q a b p t) .ne q a b p t s
def execVclt (q : BitVec 3) (a b : BitVec 5) (p : BitVec 3) (t : BitVec 2) (s : State) :=
  vcmpWord (.vclt q a b p t) .lt q a b p t s
def execVcle (q : BitVec 3) (a b : BitVec 5) (p : BitVec 3) (t : BitVec 2) (s : State) :=
  vcmpWord (.vcle q a b p t) .le q a b p t s

/-- `vsel` (13 R311): it ignores ZERO. -/
def execVsel (d a b : BitVec 5) (p : BitVec 3) (t : BitVec 2) (s : State) : Host.Outcome State Fault Refusal :=
  vecWord (.vsel d a b p t) s (fun v s =>
    let e := venv s.cur t
    let pred := s.rp p
    s.vOut d (ofLanes e.w ((List.range (64 / e.w)).map (fun k =>
      if pred.getLsbD k then laneAt e.w (v a) k else laneAt e.w (v b) k))) none 2 none)
/-- `vperm` (13 R311). -/
def execVperm (d a b : BitVec 5) (p : BitVec 3) (t : BitVec 2) (s : State) :=
  vlaneWord (.vperm d a b p t) d p t lat2 (fun e v _ k => (laneAt e.w (v a) (laneAt e.w (v b) k % (64 / e.w)), 0)) s

/-! ## Lane moves (13 R312) -/

def execVbcast (d a : BitVec 5) (p : BitVec 3) (t : BitVec 2) (s : State) :=
  vlaneWord (.vbcast d a p t) d p t lat2 (fun e _ c _ => ((c.rs a).toNat % 2 ^ (8 * e.w), 0)) s
def execVext (d a b : BitVec 5) (t : BitVec 2) (s : State) : Host.Outcome State Fault Refusal :=
  vecWord (.vext d a b t) s (fun v s =>
    let e := venv s.cur t
    .ok (s.outS d (BitVec.ofNat 64 (laneAt e.w (v a) ((s.rs b).toNat % (64 / e.w)))) 2))
def execVins (d a b : BitVec 5) (t : BitVec 2) (s : State) : Host.Outcome State Fault Refusal :=
  vecWord (.vins d a b t) s (fun v s =>
    let e := venv s.cur t
    let k := (s.rs b).toNat % (64 / e.w)
    s.vOut d (ofLanes e.w ((List.range (64 / e.w)).map (fun j =>
      if j = k then (s.rs a).toNat % 2 ^ (8 * e.w) else laneAt e.w (v d) j))) none 2 none)

/-! ## Reductions (13 R313) -/

/-- One level of the pairwise tree. -/
def pairUp (f : Nat → Nat → LaneRes) : List Nat → List LaneRes
  | a :: b :: l => f a b :: pairUp f l
  | _ => []
/-- The tree, with the flags of every operation. -/
def treeOf (f : Nat → Nat → LaneRes) : Nat → List Nat → BitVec 5 → LaneRes
  | 0, l, fl => (l.headD 0, fl)
  | n + 1, l, fl =>
    if l.length ≤ 1 then (l.headD 0, fl)
    else
      let r := pairUp f l
      treeOf f n (r.map (·.1)) (r.foldl (fun a x => a ||| x.2) fl)

/-- A reduction: `ident` replaces an inactive lane. -/
def vredWord (i : Instr) (d a : BitVec 5) (p : BitVec 3) (t : BitVec 2) (signed : Bool) (ident : VEnv → Nat)
    (f : VEnv → Nat → Nat → LaneRes) (s : State) : Host.Outcome State Fault Refusal :=
  vecWord i s (fun v s =>
    let e := venv s.cur t
    let pred := s.rp p
    let l := (List.range (64 / e.w)).map (fun k => if pred.getLsbD k then laneAt e.w (v a) k else ident e)
    let r := treeOf (f e) 6 l 0
    let x : W64 := if signed && !e.float then BitVec.ofInt 64 (sLane e.w r.1) else BitVec.ofNat 64 r.1
    let s := if e.float then s.modCur (fun c => c.raise r.2 6) else s
    .ok (s.outS d x 6))

def execVredAdd (d a : BitVec 5) (p : BitVec 3) (t : BitVec 2) (s : State) :=
  vredWord (.vredAdd d a p t) d a p t true (fun e => if e.float then e.fmt.sign else 0) (arithLane (· + ·) numAdd) s
def execVredMax (d a : BitVec 5) (p : BitVec 3) (t : BitVec 2) (s : State) :=
  vredWord (.vredMax d a p t) d a p t true
    (fun e => if e.float then e.fmt.sign + e.fmt.inf else 2 ^ (8 * e.w - 1)) (pickLane true) s
def execVredMin (d a : BitVec 5) (p : BitVec 3) (t : BitVec 2) (s : State) :=
  vredWord (.vredMin d a p t) d a p t true
    (fun e => if e.float then e.fmt.inf else 2 ^ (8 * e.w - 1) - 1) (pickLane false) s
def execVredOr (d a : BitVec 5) (p : BitVec 3) (t : BitVec 2) (s : State) :=
  vredWord (.vredOr d a p t) d a p t false (fun _ => 0) (bitLane (· ||| ·)) s

/-! ## Conversions (13 R314-R316) -/

/-- The significand of a type, for `sr`: none for an integer. -/
def sigOf (ty : Nat) : Option Nat := if 4 ≤ ty then some (fmtOfType ty).m else none
/-- The rounding mode of a conversion: `sr` only into a narrower significand (13 R314). -/
def cvtMode (rm from_ to_ : Nat) : Nat :=
  match sigOf from_, sigOf to_ with
  | some a, some b => if b < a then rm else plainMode rm
  | _, _ => plainMode rm

/-- `vcvt` (13 R314): an integer lane that saturates sets NV too, as Convert says (05 R107; log entry 24). -/
def execVcvt (d a : BitVec 5) (h : BitVec 1) (e : BitVec 2) (p : BitVec 3) (t : BitVec 2) (s : State) :
    Host.Outcome State Fault Refusal :=
  vecWord (.vcvt d a h e p t) s (fun v s =>
    let c := s.cur
    let tf := slotType c t
    let tt := slotType c e
    let ws := widthOf tf
    let wd := widthOf tt
    let m := 64 / max ws wd
    let hi : Bool := decide (h = 1)
    let pred := c.rp p
    let rm := cvtMode (modeOf c.t.rmode) tf tt
    -- the value, the bits written, the flags and the draws
    let r := (List.range m).foldl (fun (x : W512 × W512 × BitVec 5 × Nat) i =>
      let k := if wd < ws && hi then i + m else i
      if pred.getLsbD i then
        let src := laneAt ws (v a) (if ws < wd && hi then i + m else i)
        let y := roundToType (decodeType tf src) tt rm (slotOvf c e) (c.srWord x.2.2.2)
        (x.1 ||| BitVec.ofNat 512 (y.bits % 2 ^ (8 * wd) * 2 ^ (8 * wd * k)), x.2.1 ||| laneMask wd k, x.2.2.1 ||| y.flags,
          x.2.2.2 + (if y.drew then 1 else 0))
      else (x.1, if slotZero c t then x.2.1 ||| laneMask wd k else x.2.1, x.2.2)) (0, 0, 0, 0)
    let high : W512 := if wd < ws && !hi then (List.range m).foldl (fun x i => x ||| laneMask wd (i + m)) 0 else 0
    let mask := r.2.1 ||| high
    match s.srFault r.2.2.2 with
    | some (code, tval) => .trap code tval
    | none =>
      (s.vOut d r.1 (if mask = BitVec.allOnes 512 then none else some mask) 3 (some r.2.2.1)).onOk
        (fun s => s.modCur (fun c => c.drawn r.2.2.2)))

/-- `vcvtb` (13 R315). -/
def execVcvtb (d a : BitVec 5) (r : BitVec 1) (t : BitVec 2) (s : State) : Host.Outcome State Fault Refusal :=
  vecWord (.vcvtb d a r t) s (fun v s =>
    let c := s.cur
    let e := venv c t
    let g := 64 / e.w / 16
    if r = 0 then
      let l := (lanes e.w (v a)).map (decodeFp e.fmt)
      let y := encodeBlocks c.srWord (modeOf c.t.rmode) (slotOvf c t) ((List.range g).map (fun k => (l.drop (16 * k)).take 16))
      match s.srFault y.draws with
      | some (code, tval) => .trap code tval
      | none => (s.vOut d (BitVec.ofNat 512 (ofBytes y.bytes)) none 3 (some y.flags)).onOk
          (fun s => s.modCur (fun c => c.drawn y.draws))
    else
      let byte (k : Nat) : Nat := laneAt 1 (v a) k
      let code (i : Nat) : Nat := if i % 2 = 0 then byte (i / 2) % 16 else byte (i / 2) / 16
      s.vOut d (ofLanes e.w ((List.range (64 / e.w)).map (fun i =>
        (roundTo (e2m1Scaled (code i) (byte (8 * g + i / 16))) e.fmt rmRne true 0).bits))) none 3 (some 0))

/-- `vsat` (13 R316). -/
def execVsat (d a b : BitVec 5) (p : BitVec 3) (t : BitVec 2) (s : State) :=
  vlane2 (.vsat d a b p t) d a b p t lat3 (fun e x y =>
    let m : Int := 2 ^ (8 * e.w - 1)
    wrapLane e.w (min (max (sLane e.w x + sLane e.w y) (-m)) (m - 1))) s

/-! ## Predicate words and vdot4 (13 R317, R318) -/

def execVpand (d a b : BitVec 3) (s : State) : Host.Outcome State Fault Refusal :=
  runWord (.vpand d a b) s (fun s => .ok (s.outP d (s.rp a &&& s.rp b) 2))
def execVpor (d a b : BitVec 3) (s : State) : Host.Outcome State Fault Refusal :=
  runWord (.vpor d a b) s (fun s => .ok (s.outP d (s.rp a ||| s.rp b) 2))
def execVpnot (d a : BitVec 3) (s : State) : Host.Outcome State Fault Refusal :=
  runWord (.vpnot d a) s (fun s => .ok (s.outP d (~~~(s.rp a)) 2))
def execVpopc (d : BitVec 5) (a p : BitVec 3) (t : BitVec 2) (s : State) : Host.Outcome State Fault Refusal :=
  runWord (.vpopc d a p t) s (fun s =>
    .ok (s.outS d (BitVec.ofNat 64 (popUpTo (s.rp a &&& s.rp p).toNat (64 / (venv s.cur t).w))) 2))
def execViota (d : BitVec 5) (a p : BitVec 3) (t : BitVec 2) (s : State) :=
  vlaneWord (.viota d a p t) d p t lat2 (fun _ _ c k => (popUpTo (c.rp a).toNat k, 0)) s
def execVmovp (d a : BitVec 5) (r : BitVec 1) (t : BitVec 2) (s : State) : Host.Outcome State Fault Refusal :=
  vecWord (.vmovp d a r t) s (fun v s =>
    let e := venv s.cur t
    let n := 64 / e.w
    if r = 0 then
      .ok (s.outP (d.setWidth 3) (BitVec.ofNat 64 (ofBits ((List.range n).map (fun k =>
        decide (laneAt e.w (v a) k % 2 = 1))))) 2)
    else
      s.vOut d (ofLanes e.w ((List.range n).map (fun k =>
        if (s.rp (a.setWidth 3)).getLsbD k then 2 ^ (8 * e.w) - 1 else 0))) none 2 none)

/-- `vdot4` (13 R318). -/
def execVdot4 (d a b : BitVec 5) (p : BitVec 3) (t : BitVec 2) (s : State) :=
  vlane3 (.vdot4 d a b p t) d a b p t lat4 (fun e x y z =>
    let dot : Int := (List.range 4).foldl (fun (n : Int) k =>
      n + sxBits 8 (x / 2 ^ (8 * k)) * sxBits 8 (y / 2 ^ (8 * k))) 0
    wrapLane e.w (sLane e.w z + dot)) s

end Sys2Proof.Machine
end

