-- ==== Sys2Proof/Machine/Dispatch.lean ====
section
/-!
DEFINITION. The meaning of every instruction: one arm for each constructor.
-/
namespace Sys2Proof.Machine

def exec (i : Instr) (s : State) : Host.Outcome State Fault Refusal :=
  match i with
  | .nop => Sys2Proof.Machine.execNop s
  | .nopA => Sys2Proof.Machine.execNopA s
  | .add d a b => Sys2Proof.Machine.execAdd d a b s
  | .sub d a b => Sys2Proof.Machine.execSub d a b s
  | .addi d a im => Sys2Proof.Machine.execAddi d a im s
  | .mul d a b => Sys2Proof.Machine.execMul d a b s
  | .mulh d a b => Sys2Proof.Machine.execMulh d a b s
  | .mulhu d a b => Sys2Proof.Machine.execMulhu d a b s
  | .div d a b => Sys2Proof.Machine.execDiv d a b s
  | .divu d a b => Sys2Proof.Machine.execDivu d a b s
  | .rem d a b => Sys2Proof.Machine.execRem d a b s
  | .remu d a b => Sys2Proof.Machine.execRemu d a b s
  | .and d a b => Sys2Proof.Machine.execAnd d a b s
  | .or d a b => Sys2Proof.Machine.execOr d a b s
  | .xor d a b => Sys2Proof.Machine.execXor d a b s
  | .andn d a b => Sys2Proof.Machine.execAndn d a b s
  | .andi d a im => Sys2Proof.Machine.execAndi d a im s
  | .ori d a im => Sys2Proof.Machine.execOri d a im s
  | .xori d a im => Sys2Proof.Machine.execXori d a im s
  | .shl d a b => Sys2Proof.Machine.execShl d a b s
  | .shr d a b => Sys2Proof.Machine.execShr d a b s
  | .sra d a b => Sys2Proof.Machine.execSra d a b s
  | .shli d a im => Sys2Proof.Machine.execShli d a im s
  | .shri d a im => Sys2Proof.Machine.execShri d a im s
  | .srai d a im => Sys2Proof.Machine.execSrai d a im s
  | .rot d a b => Sys2Proof.Machine.execRot d a b s
  | .roti d a im => Sys2Proof.Machine.execRoti d a im s
  | .clz d a => Sys2Proof.Machine.execClz d a s
  | .ctz d a => Sys2Proof.Machine.execCtz d a s
  | .popc d a => Sys2Proof.Machine.execPopc d a s
  | .min d a b => Sys2Proof.Machine.execMin d a b s
  | .max d a b => Sys2Proof.Machine.execMax d a b s
  | .minu d a b => Sys2Proof.Machine.execMinu d a b s
  | .maxu d a b => Sys2Proof.Machine.execMaxu d a b s
  | .sel d a b p => Sys2Proof.Machine.execSel d a b p s
  | .cmpEq d a b => Sys2Proof.Machine.execCmpEq d a b s
  | .cmpNe d a b => Sys2Proof.Machine.execCmpNe d a b s
  | .cmpLt d a b => Sys2Proof.Machine.execCmpLt d a b s
  | .cmpLtu d a b => Sys2Proof.Machine.execCmpLtu d a b s
  | .cmpLe d a b => Sys2Proof.Machine.execCmpLe d a b s
  | .cmpLeu d a b => Sys2Proof.Machine.execCmpLeu d a b s
  | .cmpp q a b m c => Sys2Proof.Machine.execCmpp q a b m c s
  | .movi d im => Sys2Proof.Machine.execMovi d im s
  | .movs d im => Sys2Proof.Machine.execMovs d im s
  | .addsh d a b m => Sys2Proof.Machine.execAddsh d a b m s
  | .bfx d a b x => Sys2Proof.Machine.execBfx d a b x s
  | .bfi d a b => Sys2Proof.Machine.execBfi d a b s
  | .fadd d a b p r => Sys2Proof.Machine.execFadd d a b p r s
  | .fsub d a b p r => Sys2Proof.Machine.execFsub d a b p r s
  | .fmul d a b p r => Sys2Proof.Machine.execFmul d a b p r s
  | .fdiv d a b p r => Sys2Proof.Machine.execFdiv d a b p r s
  | .fsqrt d a p r => Sys2Proof.Machine.execFsqrt d a p r s
  | .fmin d a b p => Sys2Proof.Machine.execFmin d a b p s
  | .fmax d a b p => Sys2Proof.Machine.execFmax d a b p s
  | .fma d a b p r => Sys2Proof.Machine.execFma d a b p r s
  | .fms d a b p r => Sys2Proof.Machine.execFms d a b p r s
  | .fnma d a b p r => Sys2Proof.Machine.execFnma d a b p r s
  | .fnms d a b p r => Sys2Proof.Machine.execFnms d a b p r s
  | .fcmp d a b p => Sys2Proof.Machine.execFcmp d a b p s
  | .fclass d a p => Sys2Proof.Machine.execFclass d a p s
  | .fsgnj d a b p => Sys2Proof.Machine.execFsgnj d a b p s
  | .fsgnn d a b p => Sys2Proof.Machine.execFsgnn d a b p s
  | .fsgnx d a b p => Sys2Proof.Machine.execFsgnx d a b p s
  | .fcvtIf d a p r => Sys2Proof.Machine.execFcvtIf d a p r s
  | .fcvtFi d a p r => Sys2Proof.Machine.execFcvtFi d a p r s
  | .fcvtFf d a v e p r => Sys2Proof.Machine.execFcvtFf d a v e p r s
  | .fmvx d a b p => Sys2Proof.Machine.execFmvx d a b p s
  | .vadd d a b p t => Sys2Proof.Machine.execVadd d a b p t s
  | .vsub d a b p t => Sys2Proof.Machine.execVsub d a b p t s
  | .vmul d a b p t => Sys2Proof.Machine.execVmul d a b p t s
  | .vfma d a b p t => Sys2Proof.Machine.execVfma d a b p t s
  | .vfms d a b p t => Sys2Proof.Machine.execVfms d a b p t s
  | .vfnma d a b p t => Sys2Proof.Machine.execVfnma d a b p t s
  | .vrcp d a p t => Sys2Proof.Machine.execVrcp d a p t s
  | .vrsqrt d a p t => Sys2Proof.Machine.execVrsqrt d a p t s
  | .vexp2 d a p t => Sys2Proof.Machine.execVexp2 d a p t s
  | .vmin d a b p t => Sys2Proof.Machine.execVmin d a b p t s
  | .vmax d a b p t => Sys2Proof.Machine.execVmax d a b p t s
  | .vabs d a p t => Sys2Proof.Machine.execVabs d a p t s
  | .vneg d a p t => Sys2Proof.Machine.execVneg d a p t s
  | .vand d a b p t => Sys2Proof.Machine.execVand d a b p t s
  | .vor d a b p t => Sys2Proof.Machine.execVor d a b p t s
  | .vxor d a b p t => Sys2Proof.Machine.execVxor d a b p t s
  | .vandn d a b p t => Sys2Proof.Machine.execVandn d a b p t s
  | .vshl d a b p t => Sys2Proof.Machine.execVshl d a b p t s
  | .vshr d a b p t => Sys2Proof.Machine.execVshr d a b p t s
  | .vsra d a b p t => Sys2Proof.Machine.execVsra d a b p t s
  | .vshli d a k p t => Sys2Proof.Machine.execVshli d a k p t s
  | .vshri d a k p t => Sys2Proof.Machine.execVshri d a k p t s
  | .vsrai d a k p t => Sys2Proof.Machine.execVsrai d a k p t s
  | .vceq q a b p t => Sys2Proof.Machine.execVceq q a b p t s
  | .vcne q a b p t => Sys2Proof.Machine.execVcne q a b p t s
  | .vclt q a b p t => Sys2Proof.Machine.execVclt q a b p t s
  | .vcle q a b p t => Sys2Proof.Machine.execVcle q a b p t s
  | .vsel d a b p t => Sys2Proof.Machine.execVsel d a b p t s
  | .vperm d a b p t => Sys2Proof.Machine.execVperm d a b p t s
  | .vbcast d a p t => Sys2Proof.Machine.execVbcast d a p t s
  | .vext d a b t => Sys2Proof.Machine.execVext d a b t s
  | .vins d a b t => Sys2Proof.Machine.execVins d a b t s
  | .vredAdd d a p t => Sys2Proof.Machine.execVredAdd d a p t s
  | .vredMax d a p t => Sys2Proof.Machine.execVredMax d a p t s
  | .vredMin d a p t => Sys2Proof.Machine.execVredMin d a p t s
  | .vredOr d a p t => Sys2Proof.Machine.execVredOr d a p t s
  | .vcvt d a h e p t => Sys2Proof.Machine.execVcvt d a h e p t s
  | .vcvtb d a r t => Sys2Proof.Machine.execVcvtb d a r t s
  | .vpand d a b => Sys2Proof.Machine.execVpand d a b s
  | .vpor d a b => Sys2Proof.Machine.execVpor d a b s
  | .vpnot d a => Sys2Proof.Machine.execVpnot d a s
  | .vpopc d a p t => Sys2Proof.Machine.execVpopc d a p t s
  | .viota d a p t => Sys2Proof.Machine.execViota d a p t s
  | .vmovp d a r t => Sys2Proof.Machine.execVmovp d a r t s
  | .vsat d a b p t => Sys2Proof.Machine.execVsat d a b p t s
  | .vdot4 d a b p t => Sys2Proof.Machine.execVdot4 d a b p t s
  | .brEq a b im => Sys2Proof.Machine.execBrEq a b im s
  | .brNe a b im => Sys2Proof.Machine.execBrNe a b im s
  | .brLt a b im => Sys2Proof.Machine.execBrLt a b im s
  | .brLtu a b im => Sys2Proof.Machine.execBrLtu a b im s
  | .brGe a b im => Sys2Proof.Machine.execBrGe a b im s
  | .brGeu a b im => Sys2Proof.Machine.execBrGeu a b im s
  | .brp n m im => Sys2Proof.Machine.execBrp n m im s
  | .jmp im => Sys2Proof.Machine.execJmp im s
  | .jal im => Sys2Proof.Machine.execJal im s
  | .jr d a im => Sys2Proof.Machine.execJr d a im s
  | .trap im => Sys2Proof.Machine.execTrap im s
  | .tret => Sys2Proof.Machine.execTret s
  | .csrr d c => Sys2Proof.Machine.execCsrr d c s
  | .csrw a c => Sys2Proof.Machine.execCsrw a c s
  | .csrx d a c => Sys2Proof.Machine.execCsrx d a c s
  | .ldB d b h o c n => Sys2Proof.Machine.execLdB d b h o c n s
  | .ldBz d b h o c n => Sys2Proof.Machine.execLdBz d b h o c n s
  | .ldH d b h o c n => Sys2Proof.Machine.execLdH d b h o c n s
  | .ldHz d b h o c n => Sys2Proof.Machine.execLdHz d b h o c n s
  | .ldW d b h o c n => Sys2Proof.Machine.execLdW d b h o c n s
  | .ldWz d b h o c n => Sys2Proof.Machine.execLdWz d b h o c n s
  | .ldD d b h o c n => Sys2Proof.Machine.execLdD d b h o c n s
  | .ldoB d b im => Sys2Proof.Machine.execLdoB d b im s
  | .ldoBz d b im => Sys2Proof.Machine.execLdoBz d b im s
  | .ldoH d b im => Sys2Proof.Machine.execLdoH d b im s
  | .ldoHz d b im => Sys2Proof.Machine.execLdoHz d b im s
  | .ldoW d b im => Sys2Proof.Machine.execLdoW d b im s
  | .ldoWz d b im => Sys2Proof.Machine.execLdoWz d b im s
  | .ldoD d b im => Sys2Proof.Machine.execLdoD d b im s
  | .stB d b h o c n => Sys2Proof.Machine.execStB d b h o c n s
  | .stH d b h o c n => Sys2Proof.Machine.execStH d b h o c n s
  | .stW d b h o c n => Sys2Proof.Machine.execStW d b h o c n s
  | .stD d b h o c n => Sys2Proof.Machine.execStD d b h o c n s
  | .stoB d b im => Sys2Proof.Machine.execStoB d b im s
  | .stoH d b im => Sys2Proof.Machine.execStoH d b im s
  | .stoW d b im => Sys2Proof.Machine.execStoW d b im s
  | .stoD d b im => Sys2Proof.Machine.execStoD d b im s
  | .amoAdd d b h o c n => Sys2Proof.Machine.execAmoAdd d b h o c n s
  | .amoAnd d b h o c n => Sys2Proof.Machine.execAmoAnd d b h o c n s
  | .amoOr d b h o c n => Sys2Proof.Machine.execAmoOr d b h o c n s
  | .amoXor d b h o c n => Sys2Proof.Machine.execAmoXor d b h o c n s
  | .amoMax d b h o c n => Sys2Proof.Machine.execAmoMax d b h o c n s
  | .amoMin d b h o c n => Sys2Proof.Machine.execAmoMin d b h o c n s
  | .amoMaxu d b h o c n => Sys2Proof.Machine.execAmoMaxu d b h o c n s
  | .amoMinu d b h o c n => Sys2Proof.Machine.execAmoMinu d b h o c n s
  | .amoSwap d b h o c n => Sys2Proof.Machine.execAmoSwap d b h o c n s
  | .cas d b h o c n => Sys2Proof.Machine.execCas d b h o c n s
  | .hnew h c => Sys2Proof.Machine.execHnew h c s
  | .hfork h g c => Sys2Proof.Machine.execHfork h g c s
  | .hjoin h g c => Sys2Proof.Machine.execHjoin h g c s
  | .hfree h => Sys2Proof.Machine.execHfree h s
  | .hwait h c => Sys2Proof.Machine.execHwait h c s
  | .fence c => Sys2Proof.Machine.execFence c s
  | .pref b h o c n => Sys2Proof.Machine.execPref b h o c n s
  | .waita d b h o c n => Sys2Proof.Machine.execWaita d b h o c n s
  | .genset d a g => Sys2Proof.Machine.execGenset d a g s
  | .migr d a m => Sys2Proof.Machine.execMigr d a m s
  | .send d a p h f => Sys2Proof.Machine.execSend d a p h f s
  | .ibpop d h => Sys2Proof.Machine.execIbpop d h s
  | .ibpeek d => Sys2Proof.Machine.execIbpeek d s
  | .endH => Sys2Proof.Machine.execEnd s
  | .wdraw d a => Sys2Proof.Machine.execWdraw d a s
  | .wret d a => Sys2Proof.Machine.execWret d a s
  | .waudit d a => Sys2Proof.Machine.execWaudit d a s
  | .qwatch d a m t => Sys2Proof.Machine.execQwatch d a m t s
  | .qnew d a k => Sys2Proof.Machine.execQnew d a k s
  | .qenq d a p h f => Sys2Proof.Machine.execQenq d a p h f s
  | .qdeq d a h => Sys2Proof.Machine.execQdeq d a h s
  | .qtry d a h => Sys2Proof.Machine.execQtry d a h s
  | .qfree d a => Sys2Proof.Machine.execQfree d a s
  | .rackb d a v => Sys2Proof.Machine.execRackb d a v s
  | .bar d a v => Sys2Proof.Machine.execBar d a v s
  | .mcst d a p h f => Sys2Proof.Machine.execMcst d a p h f s
  | .spawn d a p h f => Sys2Proof.Machine.execSpawn d a p h f s
  | .fget d a x => Sys2Proof.Machine.execFget d a x s
  | .fset d a b => Sys2Proof.Machine.execFset d a b s
  | .fref d a m => Sys2Proof.Machine.execFref d a m s
  | .fdrop a => Sys2Proof.Machine.execFdrop a s
  | .fpoll d a => Sys2Proof.Machine.execFpoll d a s
  | .sync m x => Sys2Proof.Machine.execSync m x s
  | .suspend q m x => Sys2Proof.Machine.execSuspend q m x s
  | .yield m x => Sys2Proof.Machine.execYield m x s
  | .cordon d n => Sys2Proof.Machine.execCordon d n s
  | .uncordon => Sys2Proof.Machine.execUncordon s
  | .qend => Sys2Proof.Machine.execQend s
  | .vld d b h o c n => Sys2Proof.Machine.execVld d b h o c n s
  | .vst d b h o c n => Sys2Proof.Machine.execVst d b h o c n s
  | .vgath d a b p t => Sys2Proof.Machine.execVgath d a b p t s
  | .vscat d a b p t => Sys2Proof.Machine.execVscat d a b p t s
  | .vamo d o b p t => Sys2Proof.Machine.execVamo d o b p t s
  | .sbind n a r => Sys2Proof.Machine.execSbind n a r s
  | .sfree d n => Sys2Proof.Machine.execSfree d n s
  | .vsave d a => Sys2Proof.Machine.execVsave d a s
  | .vrest d a => Sys2Proof.Machine.execVrest d a s
  | .copy d a b h => Sys2Proof.Machine.execCopy d a b h s
  | .copys a b h => Sys2Proof.Machine.execCopys a b h s
  | .copyx a b o h => Sys2Proof.Machine.execCopyx a b o h s
  | .ttpost d a b h => Sys2Proof.Machine.execTtpost d a b h s
  | .caskopen m => Sys2Proof.Machine.execCaskopen m s
  | .caskseal m => Sys2Proof.Machine.execCaskseal m s
  | .idle => Sys2Proof.Machine.execIdle s
  | .plbw d a b => Sys2Proof.Machine.execPlbw d a b s
  | .plbinv d a m => Sys2Proof.Machine.execPlbinv d a m s
  | .preempt d a m => Sys2Proof.Machine.execPreempt d a m s
  | .ctxsave d a => Sys2Proof.Machine.execCtxsave d a s
  | .ctxload d a => Sys2Proof.Machine.execCtxload d a s
  | .wvint d => Sys2Proof.Machine.execWvint d s
  | .errinj d a k => Sys2Proof.Machine.execErrinj d a k s
  | .kload d a e => Sys2Proof.Machine.execKload d a e s
  | .kzero d e => Sys2Proof.Machine.execKzero d e s
  | .scrub d a b m => Sys2Proof.Machine.execScrub d a b m s
  | .assign d a b => Sys2Proof.Machine.execAssign d a b s
  | .release d => Sys2Proof.Machine.execRelease d s
  | .linkkey d a k => Sys2Proof.Machine.execLinkkey d a k s
  | .preemptTrap => Sys2Proof.Machine.execPreemptTrap s
  | .regionEventTrap => Sys2Proof.Machine.execRegionEventTrap s
  | .yieldRequestArrival => Sys2Proof.Machine.execYieldRequestArrival s
  | .divideResult => Sys2Proof.Machine.execDivideResult s
  | .memoryReply => Sys2Proof.Machine.execMemoryReply s
  | .storeAcknowledge => Sys2Proof.Machine.execStoreAcknowledge s
  | .remoteAccess => Sys2Proof.Machine.execRemoteAccess s
  | .migrationArrival => Sys2Proof.Machine.execMigrationArrival s
  | .forwardEntryExpire => Sys2Proof.Machine.execForwardEntryExpire s
  | .atomicForward => Sys2Proof.Machine.execAtomicForward s
  | .atomicRetransmit => Sys2Proof.Machine.execAtomicRetransmit s
  | .parkWake => Sys2Proof.Machine.execParkWake s
  | .parkTimeout => Sys2Proof.Machine.execParkTimeout s
  | .waitaWake => Sys2Proof.Machine.execWaitaWake s
  | .caskRefreshStart => Sys2Proof.Machine.execCaskRefreshStart s
  | .caskRefreshEnd => Sys2Proof.Machine.execCaskRefreshEnd s
  | .handleTicket => Sys2Proof.Machine.execHandleTicket s
  | .messageAccept => Sys2Proof.Machine.execMessageAccept s
  | .sendCreditReturn => Sys2Proof.Machine.execSendCreditReturn s
  | .inboxEntryStart => Sys2Proof.Machine.execInboxEntryStart s
  | .spillRetry => Sys2Proof.Machine.execSpillRetry s
  | .startAccept => Sys2Proof.Machine.execStartAccept s
  | .sliceQueueAccept => Sys2Proof.Machine.execSliceQueueAccept s
  | .mcstdone => Sys2Proof.Machine.execMcstdone s
  | .drawRequest => Sys2Proof.Machine.execDrawRequest s
  | .drawGrant => Sys2Proof.Machine.execDrawGrant s
  | .weightReturn => Sys2Proof.Machine.execWeightReturn s
  | .quiescenceDeadline => Sys2Proof.Machine.execQuiescenceDeadline s
  | .popRequest => Sys2Proof.Machine.execPopRequest s
  | .popServe => Sys2Proof.Machine.execPopServe s
  | .popWithdraw => Sys2Proof.Machine.execPopWithdraw s
  | .governorEvaluate => Sys2Proof.Machine.execGovernorEvaluate s
  | .trigger => Sys2Proof.Machine.execTrigger s
  | .quantumEnd => Sys2Proof.Machine.execQuantumEnd s
  | .reclaimMark => Sys2Proof.Machine.execReclaimMark s
  | .frameReturn => Sys2Proof.Machine.execFrameReturn s
  | .streamFetch => Sys2Proof.Machine.execStreamFetch s
  | .copyValidate => Sys2Proof.Machine.execCopyValidate s
  | .copyChunk => Sys2Proof.Machine.execCopyChunk s
  | .copydone => Sys2Proof.Machine.execCopydone s
  | .tileTaskIssue => Sys2Proof.Machine.execTileTaskIssue s
  | .tiledone => Sys2Proof.Machine.execTiledone s
  | .tileTaskAbort => Sys2Proof.Machine.execTileTaskAbort s
  | .heldMessageRelease => Sys2Proof.Machine.execHeldMessageRelease s
  | .gatewayTimeout => Sys2Proof.Machine.execGatewayTimeout s
  | .keyMarkerAccept => Sys2Proof.Machine.execKeyMarkerAccept s
  | .keydue => Sys2Proof.Machine.execKeydue s
  | .keyExhausted => Sys2Proof.Machine.execKeyExhausted s
  | .flitAuthFail => Sys2Proof.Machine.execFlitAuthFail s
  | .reductionCombine => Sys2Proof.Machine.execReductionCombine s
  | .reductionAbort => Sys2Proof.Machine.execReductionAbort s
  | .redcfgWrite => Sys2Proof.Machine.execRedcfgWrite s
  | .deviceRegisterWrite => Sys2Proof.Machine.execDeviceRegisterWrite s
  | .lcstateWrite => Sys2Proof.Machine.execLcstateWrite s
  | .isolateWrite => Sys2Proof.Machine.execIsolateWrite s
  | .supergroupRepair => Sys2Proof.Machine.execSupergroupRepair s
  | .hostRead => Sys2Proof.Machine.execHostRead s
  | .hostWrite => Sys2Proof.Machine.execHostWrite s
  | .scrubLine => Sys2Proof.Machine.execScrubLine s
  | .coldReset => Sys2Proof.Machine.execColdReset s
  | .warmReset => Sys2Proof.Machine.execWarmReset s
  | .supergroupReset => Sys2Proof.Machine.execSupergroupReset s
  | .clockStepDown => Sys2Proof.Machine.execClockStepDown s
  | .illegalInstruction => Sys2Proof.Machine.execIllegalInstruction s
  | .fetchFault => Sys2Proof.Machine.execFetchFault s
  | .softError => Sys2Proof.Machine.execSoftError s
  | .fabricAccess => Sys2Proof.Machine.execFabricAccess s
  | .memberRegistration => Sys2Proof.Machine.execMemberRegistration s
  | .coolantBelowLimit => Sys2Proof.Machine.execCoolantBelowLimit s

end Sys2Proof.Machine
end

