-- ==== Sys2Proof/Machine/Slot.lean ====
section
/-!
DEFINITION. The slot of a core: fetch, bundle kind, the words of a pair or one word of a lone bundle (03 R49-R53, R57, R58,
R76), the slot of a whole cordon (12 R286, 06 R144), and what a slot does to the core's clock and quantum.
-/
namespace Sys2Proof.Machine

/-- Changes the next state of an outcome. -/
def onNext (o : Host.Outcome State Fault Refusal) (f : State → State) : Host.Outcome State Fault Refusal :=
  match o with
  | .next s => .next (f s)
  | .fault r => .fault r
  | .refused r => .refused r

/-! ## The words of a slot -/

/-- The word reads a scalar register. -/
def readsScalar (i : Instr) : Bool := (sourcesOf i).any (fun r => decide (r.1 = .s))

/-- An armed parity error ends with the first slot that reads a scalar register: the read is replayed (06 R163). -/
def State.endParity (s : State) (n : Nat) (is : List Instr) : State :=
  if (s.coreAt n).injParity && is.any readsScalar && decide ((s.coreAt n).slot ≠ .waiting) then
    s.modCore n (fun c => { c with injParity := false })
  else s

/-- Runs one word of a lone bundle. -/
def runLone (s : State) (n : Nat) (addr : W64) (word1 : Bool) (w : W32) : Host.Outcome State Fault Refusal :=
  let pc := if word1 then addr + 4 else addr
  let next := if word1 then addr + 8 else addr + 4
  match decodeWord w with
  | .error r => .next (s.issueTrap n pc word1 w cIllegal (illegalTval (rejectReason r) word1 w))
  | .ok d => onNext (exec d.i (s.withIssue n (issueOf (s.coreAt n) pc next word1 word1 w d.s.toNat))) (fun s => s.endParity n [d.i])

/-- The first failing check of a word of a pair among steps 3 to 6 (03 R76). -/
def pairCheck (s : State) (n : Nat) (iss : Issue) : Except (BitVec 8 × W64) Instr :=
  match decodeWord iss.insn with
  | .error r => .error (cIllegal, illegalTval (rejectReason r) iss.word1 iss.insn)
  | .ok d =>
    match ({ s.coreAt n with iss := iss } : Core).issueCheck d.i with
    | some x => .error x
    | none => .ok d.i

/-- The state with the stream bindings of a core taken from another state. -/
def State.streamsOf (s : State) (n : Nat) (r : State) : State :=
  s.modCore n (fun c => { c with t := { c.t with streams := (r.coreAt n).t.streams } })

/-- The bindings of two register files, one by one. -/
def zipStreams (f : Stream → Stream → Stream) (a b : Vector (Option Stream) 4) : Vector (Option Stream) 4 :=
  Vector.ofFn (fun (i : Fin 4) => match a[i], b[i] with | some x, some y => some (f x y) | x, _ => x)
/-- The state `s` of core `n` with the bindings as `from_` has them: no word of the pair has popped, but a pop has waited. -/
def State.unpop (s : State) (n : Nat) (from_ : State) : State :=
  s.modCore n (fun c =>
    let l := zipStreams (fun x y => if y.waited then x.starve else x) (from_.coreAt n).t.streams c.t.streams
    { c with t := { c.t with streams := l } })
/-- The slot of core `n` has not taken effect. -/
def State.stopped (s : State) (n : Nat) (user : Bool) : Bool :=
  match (s.coreAt n).slot with
  | .done => false
  | .trapped => !user
  | .waiting => true

/-- The device's clock reaches a cycle. -/
def State.advanceTo (s : State) (cycle : Nat) : State :=
  if s.cycle < cycle then { s with cycle := cycle, quarters := s.quarters + (cycle - s.cycle) * s.cycleLen } else s

/-- The cycle that an `end` or a continuation write waits for, where it has left core `n` idle in `s'`: the one in which the result of a
divide that issued with it, at nominal time `nom`, arrives (04 R84). -/
def State.partnerDue (s s' : State) (n nom : Nat) : Option Nat :=
  match (s.coreAt n).t.div with
  | some d => if d.issued = nom ∧ s.cycle < d.due ∧ (s'.coreAt n).run ≠ .running ∧ (s'.coreAt n).slot = .done then some d.due else none
  | none => none

/-- Core `n`'s pair waits whole; `park` says what it waits for, where it is a page. -/
def State.holdPair (s : State) (n : Nat) (iss : Issue) (park : Option (Nat × Nat × W64)) : State :=
  (s.withIssue n iss).modCore n (fun c => { c.hold with fpark := park, qended := c.qended || s.isDet c })

/-- Runs a pair. Both words read before either writes (02 R41): word 1 takes its effect first, and word 0 reads nothing that
word 1 writes. A trap or a wait of either cancels both (03 R52), but for the partner of `trap` (06 R143). Word 0 pops its
streams before word 1 (13 R325). DESIGN CHOICE (log entry 56): where both words round with `sr` in one lane, word 1 draws its
stochastic words first. -/
def runPair (s : State) (n : Nat) (addr : W64) (w0 w1 : W32) : Host.Outcome State Fault Refusal :=
  let stall := max (wordS w0).toNat (wordS w1).toNat
  let iss0 := issueOf (s.coreAt n) addr (addr + 8) false false w0 stall
  let iss1 := issueOf (s.coreAt n) addr (addr + 8) true false w1 stall
  match pairCheck s n iss0 with
  | .error (code, tval) => .next ((s.withIssue n iss0).trapNow code tval)
  | .ok i0 =>
    match pairCheck s n iss1 with
    | .error (code, tval) => .next ((s.withIssue n iss1).trapNow code tval)
    | .ok i1 =>
      let isTrap : Bool := match i0 with | .trap _ => true | _ => false
      let pops : Bool := !((s.coreAt n).popsOf i0).isEmpty
      -- word 0 on the state that word 1 has left, which has the pops of both
      let at_ (r : State) : Host.Outcome State Fault Refusal :=
        onNext (exec i0 ((if pops then r.streamsOf n s else r).withIssue n iss0))
          (fun s' => (if pops then s'.streamsOf n r else s').endParity n [i0, i1])
      let last (r : State) : Host.Outcome State Fault Refusal :=
        match at_ r with
        | .next s' => match r.partnerDue s' n iss0.nom with
          | some due => at_ (r.advanceTo due)
          | none => .next s'
        | o => o
      match exec i0 (s.withIssue n iss0) with
      | .next r0 =>
        if r0.stopped n isTrap then .next r0
        else match exec i1 ((if pops then s.streamsOf n r0 else s).withIssue n iss1) with
          | .next r1 =>
            if r1.stopped n false then .next (if pops then r1.unpop n s else r1)
            else match last r1 with
              | .next s' =>
                -- only word 1's strip, not yet stored, can keep word 0 waiting now
                if (s'.coreAt n).slot = .waiting then
                  match r1.pushNow n with
                  | some (.ok _ r2) => onNext (last r2) (fun s'' =>
                      if (s''.coreAt n).slot = .waiting then s.holdPair n iss0 none else s'')
                  | some (.stop (.trap code tval)) => .next ((s.withIssue n iss1).trapNow code tval)
                  | some (.stop (.wait x)) => .next (s.holdPair n iss0 (x.coreAt n).fpark)
                  | _ => .next (s.holdPair n iss0 none)
                else .next s'
              | o => o
          | o => o
      | o => o

/-- Runs the words of a fetched bundle at a PC. -/
def runBundle (s : State) (n : Nat) (pc : W64) (b : W64) : Host.Outcome State Fault Refusal :=
  let addr := pc &&& ~~~(7 : W64)
  match slotKind pc b with
  | .illegal reason word1 insn => .next (s.issueTrap n addr word1 insn cIllegal (illegalTval reason word1 insn))
  | .pair w0 w1 => runPair s n addr w0 w1
  | .lone w0 w1 => if pc.getLsbD 2 then runLone s n addr true w1 else runLone s n addr false w0

/-! ## The slot of a cordon (12 R286, 06 R144) -/

/-- Some cores wait. -/
def State.waitAll (s : State) (ms : List Nat) : State :=
  ms.foldl (fun (s : State) m => s.modCore m (fun c => { c with slot := .waiting })) s

/-- One member of a cordon runs the leader's bundle. -/
def State.memberRun (s : State) (m : Nat) (pc b : W64) : State :=
  match runBundle s m pc b with | .next s' => s' | _ => s

/-- What a slot would do at each member on its own: what the waiting ones have begun, and the causes. -/
structure Trial where
  s : State
  waits : Bool
  causes : List (Nat × BitVec 8 × W64)
  /-- the PC of the word that has a cause -/
  resume : W64
  deriving DecidableEq, Repr

/-- The word of member `m` has completed a barrier that other members wait at: they go on with it (09 R255). -/
def State.barred (from_ s' : State) (ms : List Nat) (m : Nat) : Bool :=
  ms.any (fun k => decide (k ≠ m) && decide ((s'.coreAt k).txn = .barDone) && decide ((from_.coreAt k).txn ≠ .barDone))

def Trial.add (t : Trial) (from_ s' : State) (ms : List Nat) (m : Nat) : Trial :=
  let c := s'.coreAt m
  match c.slot with
  | .waiting => { t with s := s', waits := true }
  | .trapped => { t with s := from_, causes := t.causes ++ [(m, c.tcause.extractLsb' 0 8, c.tval)], resume := c.tpc }
  | .done =>
    if from_.barred s' ms m then
      { t with s := s'.setCore m { from_.coreAt m with txn := .barDone, live := c.live }, waits := true }
    else { t with s := from_ }

/-- Every member tries the slot from the same state. -/
def State.tryCordon (s : State) (ms : List Nat) (pc b : W64) : Trial :=
  ms.foldl (fun (t : Trial) m => t.add t.s (t.s.memberRun m pc b) ms m) { s := s, waits := false, causes := [], resume := pc }

/-- Every member that still runs makes the slot, lane after lane. -/
def State.runCordon (s : State) (ms : List Nat) (pc b : W64) : Trial :=
  ms.foldl (fun (t : Trial) m =>
    if (t.s.coreAt m).run ≠ .running then t
    else
      let s' := t.s.memberRun m pc b
      t.add s' s' ms m) { s := s, waits := false, causes := [], resume := pc }

/-- The followers go on where the leader goes on. -/
def State.slave (s : State) (n : Nat) : State :=
  let pc := (s.coreAt n).t.pc
  (s.coreAt n).members.foldl (fun (s : State) m => s.modCore m (fun c => c.jump pc)) s

/-- The slot of a cordon: it issues when every member can issue it; a cause in any member traps every member at the word. At a
reclamation point a marked cordon is reclaimed, whatever its followers find there (12 R267, R286). -/
def cordonSlot (s : State) (n : Nat) (pc b : W64) : State :=
  let ms := s.cordonOf n
  if ms.any (fun m => (s.coreAt m).pl ≠ 0) then s.modCore n (fun c => { c with slot := .waiting })
  else if ms.any (fun m => (s.coreAt m).mem.any (fun a => !a.cleared) || !(s.coreAt m).pushes.isEmpty) then s.waitAll ms
  else if (s.coreAt n).marked ∧ ((s.memberRun n pc b).coreAt n).run = .idle then s.memberRun n pc b
  else
    let t := s.tryCordon ms pc b
    let user : Bool := t.causes.all (fun e => decide (e.2.1 = cUserTrap))
    if t.waits then t.s.waitAll ms
    else if !t.causes.isEmpty && !user then
      (if ms.any (fun m => (s.coreAt m).uncleared) then s.waitAll ms else s.cordonTrap ms t.causes t.resume)
    else
      let r := s.runCordon ms pc b
      if r.waits then s.waitAll ms
      else if !r.causes.isEmpty && user && !t.causes.isEmpty then
        ms.foldl (fun (s : State) m => s.modCore m (fun c => { c with tcause := cordTcause c.tcause 0 })) r.s
      else if !r.causes.isEmpty then s.cordonTrap ms r.causes r.resume
      else r.s.slave n

/-! ## Issuing -/

/-- Issues the slot of core `n`, alone or with the cordon that it leads. A walk that meets an invalid entry parks the fetch, or
takes PAGE_FAULT (07 R181); one that finds memory of the other die may move the thread (07 R183). -/
def issueOne (s : State) (n : Nat) : Host.Outcome State Fault Refusal :=
  let c := s.coreAt n
  let pc := c.t.pc
  let addr := pc &&& ~~~(7 : W64)
  let locs := (List.range 8).map (fun i => s.locate (addr + BitVec.ofNat 64 i))
  let fresh : Bool := decide (c.pl = 0) && s.fetchable addr && (FMap.get? c.icache addr.toNat).isNone
  match (if fresh && s.permits c addr rExec then s.walkTarget n addr none else none) with
  | some dest =>
    if c.uncleared || decide (0 < c.unacked) || decide (s.cycle < c.t.divDue) then .next s
    else .next (s.sendThread n dest c.t none)
  | none =>
  if s.fetchable addr && s.offNow locs then .next (s.keepOff n addr locs)
  else match s.fetch n addr with
  | .trap code => .next (s.fetchFail n code)
  | .invalid pte =>
    if c.ctxid = 0 ∨ 256 ≤ s.monitors (s.homeSlice addr.toNat) then .next (s.fetchFail n cPageFault)
    else .next (s.modCore n (fun c => { c with slot := .waiting, fpark := some (s.parkKey pte (s.homeSlice addr.toNat), s.time, addr) }))
  | .bundle b s' =>
    let s' := s'.answered n addr
    if c.members.isEmpty ∨ c.pl ≠ 0 then runBundle s' n pc b
    else .next (cordonSlot s' n pc b)

/-- A slot may issue in the quantum of a deterministic region: before its end, or in the commit, in increasing core number
(12 R283, R284). -/
def State.quantumOpen (s : State) (n : Nat) : Bool :=
  match s.ctxOf (s.coreAt n) with
  | none => true
  | some x =>
    if x.rcb.modef.getLsbD 1 = false then true
    else if x.committing then
      let ms := s.cordonOf n
      let low := ms.foldl min n
      ms.any (fun m => (s.coreAt m).qgo) && x.cores.all (fun m => !(s.coreAt m).qgo || ms.contains m || decide (low < m))
    else !(s.coreAt n).qended

/-- After its slot a core can issue again 1 + S cycles later (03 R57), one that waits at the next cycle; and its words count in the quantum (12 R283). -/
def Core.tally (old new : Core) (cycle len : Nat) : Core :=
  let words := new.instret.toNat - old.instret.toNat
  let count := old.qcount + words
  { new with
    ready := max new.ready (cycle + 1 + (if new.slot = .waiting then 0 else new.iss.stall))
    qgo := false
    qcount := if len = 0 then new.qcount else count
    qended := new.qended || (decide (0 < len) && decide (len ≤ count)) }

/-- QUANTUM.LEN of a core. -/
def State.lenOf (s : State) (c : Core) : Nat :=
  match s.ctxOf c with
  | some x => if x.rcb.modef.getLsbD 1 then x.rcb.quantum.toNat else 0
  | none => 0

/-- What follows the slot of a core or cordon. -/
def State.afterSlot (s : State) (ms : List Nat) (s' : State) : State :=
  let s' := ms.foldl (fun (s' : State) m => s'.modCore m (fun c => (s.coreAt m).tally c s.cycle (s.lenOf (s.coreAt m)))) s'
  if 1 < ms.length ∧ ms.any (fun m => (s'.coreAt m).qended) = true then
    ms.foldl (fun (s' : State) m => s'.modCore m (fun c => { c with qended := true })) s'
  else s'

/-- The core whose slot a core's turn issues: a follower's slots are its leader's. -/
def State.leadOf (s : State) (n : Nat) : Nat :=
  let c := s.coreAt n
  if c.pl = 0 then c.leader.getD n else n

/-- The divider's result that is due reaches its core (04 R84). -/
def State.divideDue (s : State) (n : Nat) : State :=
  match (s.coreAt n).t.div with
  | some d => if s.cycle < d.due then s else s.modCore n (fun c => { c with t := c.t.endDiv })
  | none => s

/-- The parked read of a core's descriptors is made again once a write has set V. At the park limit the slots that can be read then
are installed, and the others are off (07 R172, R181). Until then the run's first slot waits. -/
def State.gensWait (s : State) (n : Nat) (key since : Nat) : State :=
  let c := s.coreAt n
  match s.ctxOf c with
  | none => s.modCore n (fun c => { c with gpark := none })
  | some x =>
    if s.wakes key then s.modCore n (fun c => { c with gpark := s.gensPark x, t := { c.t with gens := s.loadGens x } })
    else if since + x.rcb.parklim.toNat ≤ s.time then s.modCore n (fun c => { c with gpark := none, t := { c.t with gens := s.loadGens x } })
    else (s.advanceTo c.ready).modCore n (fun c => { c with ready := max c.ready s.cycle + 1 })

/-- The turn of a core: a result that is due for a bound register is pushed; a pending asynchronous cause is taken; or the next
slot issues. -/
def slotTurn (s : State) (n0 : Nat) : Host.Outcome State Fault Refusal :=
  let n := s.leadOf n0
  let c := s.coreAt n
  let pushed : Option State := (if c.pl = 0 then s.cordonOf n else [n]).findSome? (fun m => s.landNext m (c.preempt || c.qended))
  if s.firmware = false then .next s
  else if pushed.isSome then .next (pushed.getD s)
  else if c.run = .waking then .next (s.takeAsync n)
  else if c.preempt ∧ c.pl = 0 ∧ c.run = .running ∧ s.isDet c = false ∧ c.cancellable = true ∧ c.gpark = none then .next (s.preemptNow n)
  else if c.canIssue = false ∨ s.quantumOpen n = false then .next s
  else match c.gpark with
  | some (key, since) => .next (s.gensWait n key since)
  | none =>
    let ms := if c.pl = 0 then s.cordonOf n else [n]
    let s := ms.foldl State.divideDue (s.advanceTo c.ready)
    onNext (issueOne s n) (fun s' => (s.afterSlot ms s').reclaimAsleep n)

end Sys2Proof.Machine
end

