-- ==== Sys2Proof/Machine/Sched.lean ====
section
/-!
DEFINITION. What moves next where the agenda is empty (log entry 5): the first step, of those that the state's own entries
offer, that changes the state; else the slot of a core; else time. The spec leaves the choice open; the agenda can make any
other.
-/
namespace Sys2Proof.Machine

/-- A step at a core with a place. -/
def evAt (i : Instr) (core pick : Nat) : Turn := { act := .event i, ev := { Ev.none with core := core, pick := pick } }
/-- A step of a context. -/
def evCtx (i : Instr) (id : Nat) (ok : Bool) : Turn := { act := .event i, ev := { Ev.none with val := BitVec.ofNat 64 id, ok := ok } }
/-- Each of some steps at each place below a bound. -/
def evEach (is : List Instr) (core n : Nat) : List Turn := (List.range n).flatMap (fun k => is.map (fun i => evAt i core k))

/-- The entry that something is parked on may have become valid: the walk is tried again. -/
def wakeOf (p : Option (Nat × Nat)) : List Turn :=
  match p with
  | some (key, _) =>
    let pte := parkPte key
    [{ act := .event .parkWake, ev := { Ev.none with pick := pte / 2 ^ 64, val := BitVec.ofNat 64 pte } }]
  | none => []

/-- The steps that a core's own entries offer. -/
def State.coreTurns (s : State) (n : Nat) (c : Core) : List Turn :=
  evEach [.handleTicket, .storeAcknowledge, .remoteAccess, .memoryReply, .deviceRegisterWrite, .lcstateWrite, .isolateWrite,
      .redcfgWrite] n c.mem.length
    ++ (if c.t.div.isSome then [evAt .divideResult n 0] else [])
    ++ (match c.txn with
        | .waita tag true => (match c.mem.find? (fun x => decide (x.tag = tag)) with
          | some x => if s.vNum x.addr.toNat 8 = x.operand.toNat then [] else [evAt .waitaWake n 0]
          | none => [])
        | _ => [])
    ++ (if c.run = .idle then [evAt .inboxEntryStart n 0, evAt .spillRetry n 0, evAt .popRequest n 0] else [])
    ++ evEach [.mcstdone] n c.mcsts.length
    ++ evEach [.forwardEntryExpire] n c.fwd.length
    ++ (if c.t.streams.toList.any (·.isSome) then evEach [.streamFetch] n 4 else [])
    ++ evEach [.copyValidate, .copyChunk, .reductionAbort, .copydone] n c.copyq.length
    ++ (c.mem.flatMap (fun a => wakeOf a.parked)) ++ (c.copyq.flatMap (fun q => wakeOf q.parked))
    ++ (c.t.streams.toList.flatMap (fun q => wakeOf (q.bind (·.parked))))
    ++ wakeOf (c.fpark.map (fun p => (p.1, p.2.1)))
    ++ (List.range 4).flatMap (fun kind => (List.range (max 4 (max c.mem.length c.copyq.length))).map (fun k =>
        { act := .event .parkTimeout, ev := { Ev.none with core := n, pick := k, val := BitVec.ofNat 64 kind } }))

/-- A region where something is left to commit: a core runs, holds a message or effect or has a cause to take, an entry is queued, a packet
or an engine command is on its way. -/
def State.quantumBusy (s : State) (id : Nat) (x : Ctx) : Bool :=
  x.committing || s.net.any (fun p => decide (p.ctx = id))
    || x.cores.any (fun n =>
        let c := s.coreAt n
        decide (c.run = .running) || decide (c.run = .waking) || c.preempt || !c.inbox.isEmpty || !c.copyq.isEmpty
          || !c.heldOut.isEmpty || c.mem.any (fun a => a.held))
    || !(s.fullQueues x).isEmpty
    || s.tiles.any (fun e => e.2.any (fun t => decide (t.ctx = id)))

/-- The steps that a context offers. -/
def State.ctxTurns (s : State) (id : Nat) (x : Ctx) : List Turn :=
  [evCtx .drawRequest id true, evCtx .popServe id true, evCtx .frameReturn id false]
    ++ (if s.quantumBusy id x then [evCtx .quantumEnd id false] else [])
    ++ [evCtx .quiescenceDeadline id false, evCtx .governorEvaluate id false]

/-- The steps that packets offer: at each target and at home. -/
def netTurns (net : List Packet) : List Turn :=
  let cores := (net.filterMap (fun p => match p.dest with | .core n => some n | _ => none)).eraseDups
  cores.flatMap (fun n => [.yieldRequestArrival, .messageAccept, .sendCreditReturn, .drawGrant, .migrationArrival].map (fun i => evAt i n 0))
    ++ evEach [.drawRequest, .weightReturn, .startAccept, .popServe, .popWithdraw, .reclaimMark, .sliceQueueAccept] 0 net.length

/-- The steps that the engines and the rest of the device offer. -/
def State.devTurns (s : State) : List Turn :=
  s.tiles.flatMap (fun e => evAt .tileTaskIssue (64 * e.1) 0 :: (evEach [.tileTaskAbort, .tiledone] (64 * e.1) e.2.length
      ++ e.2.flatMap (fun t => wakeOf t.parked)
      ++ (List.range e.2.length).map (fun k => { act := .event .parkTimeout, ev := { Ev.none with core := 64 * e.1, pick := k, val := 4 } })))
    ++ s.net.flatMap (fun p => wakeOf p.parked)
    ++ (if s.net.any (fun p => p.parked.isSome) then (List.range s.net.length).map (fun k =>
        { act := .event .parkTimeout, ev := { Ev.none with pick := k, val := 5 } }) else [])
    ++ s.stale.map (fun v => { act := .dropStale v.die v.line, ev := Ev.none })
    ++ s.refresh.map (fun b => evAt .caskRefreshEnd 0 b)
    ++ (if s.scrubBusy then [evAt .scrubLine 0 0] else [])
    ++ evEach [.heldMessageRelease] 0 s.heldMsgs.length
    ++ (if s.cores.any (fun e => decide (e.2.run = .stopped)) then
        [{ act := .event .warmReset, ev := { Ev.none with ok := true } }] else [])

/-- Every step that the state offers. -/
def State.offers (s : State) : List Turn :=
  s.cores.flatMap (fun e => s.coreTurns e.1 e.2) ++ netTurns s.net ++ s.ctxs.flatMap (fun e => s.ctxTurns e.1 e.2) ++ s.devTurns

/-- The step changes the state. -/
def State.changes (s : State) (t : Turn) : Bool :=
  match t.act with
  | .event i => (match exec i { s with ev := t.ev } with
    | .next s' => decide ({ s' with ev := s.ev } ≠ s)
    | _ => false)
  | .dropStale _ _ => true
  | _ => false

/-- The core whose slot comes first in time: the lowest cycle, then the lowest number. Only core 0 runs where none is listed. -/
def State.nextCore (s : State) : Option Nat :=
  let able := s.cores.filter (fun e => decide (s.leadOf e.1 = e.1) && s.firmware && s.quantumOpen e.1
    && (e.2.canIssue || decide (e.2.run = .waking)))
  match able with
  | [] => if s.cores.isEmpty then some 0 else none
  | e :: l => some (l.foldl (fun (b : Nat × Nat) (x : Nat × Core) => if x.2.ready < b.2 then (x.1, x.2.ready) else b) (e.1, e.2.ready)).1

/-- The default turn. -/
def State.defaultTurn (s : State) : Turn :=
  match s.offers.find? s.changes with
  | some t => t
  | none =>
    match s.nextCore with
    | some n => { act := .slot, ev := { Ev.none with core := n } }
    | none => { act := .tick 1 0, ev := Ev.none }

/-! ## What the outside does -/

/-- Bytes of host memory or of another device's memory change. A cached line of host memory leaves the caches first, as the
write-back it makes does not follow the new bytes. The visitor copies of a line of another device's stay, old, until their
invalidations arrive, each die's at its own time (08 R205). -/
def State.outside (s : State) (key : Nat) (bs : List Byte) : State :=
  let ks := (List.range bs.length).map (key + ·)
  let own := spaceOf key = 4
  if own ∨ spaceOf key = 5 ∨ spaceOf key = spRemote then
    let lines := if spaceOf key = spRemote then [] else s.cache.filter (fun e => ks.any (fun k => decide (k / 64 * 64 = e.2.pa)))
    let s := lines.foldl (fun (s : State) e => { s.evict e.1 with stale := s.stale ++ s.agedCopies e.2 e.1 [] }) s
    { s with mem := Memory.writeAll s.mem ks bs }
  else s

/-- Time passes. -/
def State.tick (s : State) (cycles quarterNs : Nat) : State :=
  { s with cycle := s.cycle + cycles, quarters := s.quarters + cycles * s.cycleLen + quarterNs }

/-- A flit crosses a link, unless the transmitter holds it (17 R372). -/
def State.flit (s : State) (i : Nat) : State :=
  let l := s.linkAt i
  if isLink i && !l.holding && !l.down && decide (l.count < 2 ^ 48) then s.setLink i { l with count := l.count + 1 } else s

/-! ## What every step leaves behind -/

/-- The region whose handler a core runs. -/
def Core.handlerOf (c : Core) : Option W32 :=
  if c.ctxid = 0 ∨ c.run = .idle ∨ c.run = .stopped ∨ c.run = .inReset then none else some c.ctxid

/-- The newest entries of a history, and the first that is 64 cycles old. -/
def trimHist (cycle : Nat) : List (Nat × Option W32 × BitVec 5) → List (Nat × Option W32 × BitVec 5)
  | [] => []
  | e :: l => if e.1 + 64 ≤ cycle then [e] else e :: trimHist cycle l

/-- A core's nominal time at a cycle, which is not after that of its next slot. -/
def Core.nomAt (c : Core) (cycle : Nat) : Nat := c.t.nom - (c.ready - cycle)
/-- The flags of a divide whose result is there at a cycle (05 R110, R130). -/
def Thread.divFlags (t : Thread) (cycle : Nat) : BitVec 5 :=
  match t.div with | some d => if d.due ≤ cycle then d.flags else 0 | none => 0
/-- FLAGS with their region at a cycle, where they have changed. -/
def Core.noteAt (c : Core) (cycle : Nat) : Core :=
  let now := (c.handlerOf, c.t.flagsAt (c.nomAt cycle) ||| c.t.divFlags cycle)
  if now = ((c.flagHist.head?.map (fun (e : Nat × Option W32 × BitVec 5) => e.2)).getD (none, 0)) then c
  else { c with flagHist := trimHist cycle ((cycle, now) :: c.flagHist) }
/-- The history of FLAGS at a cycle (05 R112): with the flags that have become visible since the last entry, each at its own
cycle. -/
def Core.noteFlags (c : Core) (cycle : Nat) : Core :=
  let since := (c.flagHist.head?.map (·.1)).getD 0
  let ks := (c.t.pendFlags.map (fun e => c.ready - (c.t.nom - e.visible)) ++ (c.t.div.map (·.due)).toList).filter
    (fun k => decide (since < k) && decide (k < cycle))
  let sorted := ks.foldl (fun (l : List Nat) k => l.filter (· < k) ++ [k] ++ l.filter (k < ·)) []
  (sorted ++ [cycle]).foldl (fun (c : Core) k => c.noteAt k) c
/-- The history of FLAGS after a turn that found the core as `old`: what has become visible to it until then comes first, each at its own
cycle. -/
def Core.history (old new : Core) (cycle : Nat) : Core :=
  (if new.flagHist = old.flagHist then { new with flagHist := (old.noteFlags cycle).flagHist } else new).noteFlags cycle

/-- The core has taken an ECC trap in this step. -/
def Core.tookEcc (old new : Core) : Bool :=
  decide (new.slot = .trapped) && decide (new.tcause.extractLsb' 0 8 = cEcc)
    && !(decide (old.slot = .trapped) && decide (old.tpc = new.tpc) && decide (old.pl = new.pl) && decide (old.tcause = new.tcause))

/-- The copy commands of a core that have ended FAULT with code 0x0D: their contexts. -/
def eccOf (c : Core) : List Nat :=
  (c.copyq.filter (fun (k : CopyCmd) => match k.status with | some (st, code, _) => decide (st = stFault) && decide (code = 13) | none => false)).map (·.ctx)

/-- The contexts of an ECC trap or FAULT of this step. -/
def State.eccCtxs (s s' : State) : List Nat :=
  s'.cores.flatMap (fun (e : Nat × Core) =>
      let old := s.coreAt e.1
      (if old.tookEcc e.2 && decide (e.2.ctxid ≠ 0) then [e.2.ctxid.toNat] else [])
        ++ (if eccOf old = eccOf e.2 then [] else eccOf e.2))

/-- A packet for another device comes to its gateway. -/
def State.atGateway (s : State) (p : Packet) : Packet :=
  match p.dest, p.since with
  | .remote _, none => { p with since := some s.time }
  | _, _ => p

/-- The state after a turn: packets leave that no earlier word holds back any more (06 R141), the fault domains of its ECC errors stop (12 R276), events that a home core held reach a supervisor
(06 R139), the history of FLAGS goes on, and packets for other devices come to their gateways. -/
def State.settle (s s' : State) : State :=
  let s' := (s'.cores.filter (fun (e : Nat × Core) => !e.2.later.isEmpty)).foldl (fun (s' : State) e => s'.letLeave e.1 e.2.later.length) s'
  let s' := ((s.eccCtxs s').foldl State.faultDomain s').raiseHeld
  { s' with
    cores := s'.cores.map (fun (e : Nat × Core) => (e.1, (s.coreAt e.1).history e.2 s'.cycle))
    net := s'.net.map (s'.atGateway) }

end Sys2Proof.Machine
end

