-- ==== Sys2Proof/Machine/Step.lean ====
section
/-!
DEFINITION. One step of the machine: the next turn of the agenda, or the default turn; then what every step leaves behind.
-/
namespace Sys2Proof.Machine

/-! ## The step -/

/-- Makes a turn. A core that the part does not have makes none. -/
def runTurn (s : State) (t : Turn) : Host.Outcome State Fault Refusal :=
  let s := { s with ev := t.ev }
  match t.act with
  | .slot => if t.ev.core < s.ncores then slotTurn s t.ev.core else .fault .noSuchCore
  | .event i =>
    if isWord i then .next s
    else if t.ev.core < s.ncores then exec i s
    else .fault .noSuchCore
  | .tick c q => .next (s.tick c q)
  | .evict l => .next (s.evict l)
  | .outside k bs => .next (s.outside k bs)
  | .movePage p start => .next { s with moving := if start then s.moving ++ [p] else s.moving.filter (· ≠ p) }
  | .dropStale die line => .next { s with stale := s.stale.filter (fun v => !(decide (v.die = die) && decide (v.line = line))) }
  | .flit l => .next (s.flit l)

/-- The next turn, and the state without it. -/
def State.turn (s : State) : Turn × State :=
  match s.agenda with
  | t :: l => (t, { s with agenda := l })
  | [] => (s.defaultTurn, s)

/-- One step. -/
def step (s : State) : Host.Outcome State Fault Refusal :=
  onNext (runTurn s.turn.2 s.turn.1) s.turn.2.settle

/-! ## Placing an instruction (log entry 1) -/

/-- The bundle that issues one word: alone as word 0; a word with L = 0 as word 1, behind an A-class `nop`; a C-class word
with L = 0 that word 1 does not take would not decode there either. -/
def placedBundle (w : W32) : W64 :=
  if wordL w = 1 then (0x4000_0000#32 ++ w : BitVec 64) else (w ++ 0xC000_0000#32 : BitVec 64)

/-- The state in which the next step fetches and runs a word: its bundle stands at the start of core 0's scratchpad, core 0's
PC is at it, and core 0 has the next turn. -/
def State.withFetchWord (s : State) (nbits w : Nat) : State :=
  let x : W32 := BitVec.ofNat 32 (w % 2 ^ nbits)
  let base : W64 := 0x00F8_0000_0000_0000
  let ks := (List.range 8).map (fun i => s.spadKey (keyOf spSpad i))
  let mem := Memory.writeAll s.mem ks (toBytes 8 (placedBundle x).toNat)
  { s.modCore 0 (fun c => { c with
      t := { c.t with pc := if wordL x = 1 then base else base + 4 }
      code := some { s.codeView with mem := mem }, icache := FMap.erase c.icache base.toNat, fpark := none, slot := .done }) with
    mem := mem
    agenda := [{ act := .slot, ev := Ev.none }] }

end Sys2Proof.Machine
end

