-- ==== Sys2Proof/Safety.lean ====
section
/-!
DEFINITION. The terms that claims are stated in: safe runs, words that may take effect, what a word that takes effect does to
its slot, what a register holds and will hold, and what stays as it was.
-/
namespace Sys2Proof.Machine

/-- The next `n` steps are all made. -/
def safeFor : Nat → State → Prop
  | 0, _ => True
  | n + 1, s => ∃ s', step s = .next s' ∧ safeFor n s'

/-! ## Words -/

/-- The word may take effect in this slot: the issue checks find nothing (03 R76), its sources have arrived (03 R57), and
it writes no register that holds a future reference (12 R266). -/
def Ready (i : Instr) (s : State) : Prop :=
  s.cur.issueCheck i = none ∧ s.cur.awaits (sourcesOf i) = false ∧ s.cur.markedDest i = none

/-- The word takes effect in this slot: the slot ends, the next one follows it (03 R58), and INSTRET counts it (03 R66). -/
def Retires (i : Instr) (s t : State) : Prop :=
  exec i s = .next t ∧ t.cur.slot = .done ∧ t.cur.t.pc = s.cur.iss.next
    ∧ t.cur.t.nom = s.cur.iss.nom + 1 + s.cur.iss.stall ∧ t.cur.instret = s.cur.instret + 1

/-- The word waits: the slot is issued again with its PC and its nominal time (03 R57). -/
def Waits (i : Instr) (s t : State) : Prop :=
  exec i s = .next t ∧ t.cur.slot = .waiting ∧ t.cur.t.pc = s.cur.iss.pc ∧ t.cur.t.nom = s.cur.iss.nom
    ∧ t.cur.instret = s.cur.iss.instret

/-- The word traps and performs nothing else (03 R52, 06 R140). -/
def Traps (i : Instr) (s : State) (code : BitVec 8) (tval : W64) : Prop := exec i s = .next (s.trapNow code tval)

/-- Nothing that the thread has begun is on its way, and no reclamation and no deterministic region holds it back. -/
structure Settled (s : State) : Prop where
  cleared : s.cur.uncleared = false
  quiet : s.cur.mem.all Access.isJoin = true
  unmarked : s.cur.marked = false
  noHeld : s.cur.replay = []
  noTxn : s.cur.txn = .none
  free : s.isDet s.cur = false

/-! ## Registers -/

/-- What a register holds at a nominal slot time, and the results on their way to it then. -/
def Thread.regView (t : Thread) (now : Nat) (f : RFile) (r : Nat) : W512 × List Pending :=
  ((t.settle now).file f r, (t.settle now).pend.filter (fun e => e.is f r))

/-- From the word's slot on, a register gives its old value for `lat` cycles of nominal time and then `x` (03 R59, R60). -/
def ResultIn (s t : State) (f : RFile) (r : Nat) (x : W512) (lat : Nat) : Prop :=
  (∀ now, s.cur.iss.nom < now → s.cur.iss.nom + lat ≤ now → t.cur.t.read f r now = x)
    ∧ ∀ now, s.cur.iss.nom < now → now < s.cur.iss.nom + lat →
        t.cur.t.read f r now = (s.cur.t.settle s.cur.iss.nom).read f r now

/-- No register but the listed ones changes, nor does what is on its way to it. -/
def OnlyRegs (s t : State) (l : List (RFile × Nat)) : Prop :=
  ∀ f r, (f, r) ∉ l → t.cur.t.regView s.cur.iss.nom f r = s.cur.t.regView s.cur.iss.nom f r

/-- Nothing changes but the registers of one core, what is on its way to them, FLAGS, and its slot. -/
def OnlyThread (s t : State) : Prop :=
  ∃ th : Thread,
    t = s.setCur { s.cur with t := th, instret := s.cur.instret + 1, slot := .done }
      ∧ th = { s.cur.t with s := th.s, v := th.v, p := th.p, pend := th.pend, flags := th.flags, pendFlags := th.pendFlags,
                            pc := s.cur.iss.next, nom := s.cur.iss.nom + 1 + s.cur.iss.stall }

/-- Nothing changes outside the core that the word runs on: no byte of memory, no other core, no queue, no message. -/
def OnlyCur (s t : State) : Prop := t = s.setCur t.cur

/-- The special registers of a core, its protection entries and its place in a context keep their values. -/
def SameSpecials (c d : Core) : Prop :=
  d.pl = c.pl ∧ d.check = c.check ∧ d.dzt = c.dzt ∧ d.ctxid = c.ctxid ∧ d.region = c.region ∧ d.supv = c.supv
    ∧ d.ternbad = c.ternbad ∧ d.tvec = c.tvec ∧ d.tcause = c.tcause ∧ d.tval = c.tval ∧ d.tpc = c.tpc
    ∧ d.sscratch = c.sscratch ∧ d.mvec = c.mvec ∧ d.mscratch = c.mscratch ∧ d.plb = c.plb

/-- The thread's registers of its own: weight, marks, rounding, types, handles, generators and streams. -/
def SameThread (t u : Thread) : Prop :=
  u.w = t.w ∧ u.fmask = t.fmask ∧ u.rmode = t.rmode ∧ u.vtt = t.vtt ∧ u.scaleb = t.scaleb ∧ u.homepol = t.homepol
    ∧ u.h = t.h ∧ u.gens = t.gens ∧ u.streams = t.streams ∧ u.frame = t.frame ∧ u.prio = t.prio ∧ u.vint = t.vint

/-- FLAGS takes some bits `lat` cycles of nominal time after the word's slot, and none before (05 R110). -/
def FlagsIn (s t : State) (bits : BitVec 5) (lat : Nat) : Prop :=
  ∀ now, s.cur.iss.nom ≤ now →
    t.cur.t.flagsAt now = s.cur.t.flagsAt now ||| (if s.cur.iss.nom + lat ≤ now then bits else 0)

/-- FLAGS is not changed, nor what is on its way to it. -/
def SameFlags (s t : State) : Prop := t.cur.t.flags = s.cur.t.flags ∧ t.cur.t.pendFlags = s.cur.t.pendFlags

/-- Every byte of memory outside some keys reads as before. -/
def SameMem (s t : State) (ks : List Nat) : Prop :=
  ∀ k, k ∉ ks → Memory.read t.mem k = Memory.read s.mem k

end Sys2Proof.Machine
end

