-- ==== Sys2Proof/Certificates/Slice0/Obligations.lean ====
section
/-!
DEFINITION. The statements for the provers, and the tables of the spec that they speak of: what each word writes, written from
the rules of the spec and not from the meanings.
-/
namespace Sys2Proof.Machine

/-! ## Integer words (04) -/

/-- The shift amount of a register form, or of an immediate (04 R86). -/
def spAmount (x : W64) : Nat := x.toNat % 256
def spImm (i : BitVec 10) : W64 := BitVec.ofInt 64 i.toInt
/-- The shifts of 04 R86, as arithmetic. -/
def spShl (x : W64) (k : Nat) : W64 := BitVec.ofNat 64 (x.toNat * 2 ^ k)
def spShr (x : W64) (k : Nat) : W64 := BitVec.ofNat 64 (x.toNat / 2 ^ k)
def spSra (x : W64) (k : Nat) : W64 := BitVec.ofInt 64 (x.toInt / (2 ^ k : Nat))
/-- The rotation of 04 R87. -/
def spRot (x : W64) (k : Nat) : W64 := BitVec.ofNat 64 (x.toNat * 2 ^ (k % 64) + x.toNat / 2 ^ (64 - k % 64))
/-- The conditions of 04 Table 4-10. -/
def spCond (code : Nat) (x y : W64) : Bool :=
  match code with
  | 0 => decide (x = y)
  | 1 => decide (x ≠ y)
  | 2 => decide (x.toInt < y.toInt)
  | 3 => decide (x.toNat < y.toNat)
  | 4 => decide (x.toInt ≤ y.toInt)
  | _ => decide (x.toNat ≤ y.toNat)
/-- 1 when the condition holds, and 0 otherwise (04 R90). -/
def spCmp (code : Nat) (x y : W64) : W64 := if spCond code x y then 1 else 0
/-- All ones when the condition holds, and 0 otherwise (04 R91). -/
def spMask (code : Nat) (x y : W64) : W64 := if spCond code x y then BitVec.allOnes 64 else 0
/-- Position, effective length and mask of a bit-field control value (04 R95). -/
def spPos (c : W64) : Nat := c.toNat % 64
def spLen (c : W64) : Nat := min (c.toNat / 256 % 64 + 1) (64 - spPos c)
/-- The field of 04 R96. -/
def spField (x c : W64) : BitVec 64 := BitVec.ofNat 64 (x.toNat / 2 ^ spPos c % 2 ^ spLen c)
def spFieldS (x c : W64) : BitVec 64 := ((x >>> spPos c).setWidth (spLen c)).signExtend 64
/-- The insertion of 04 R96. -/
def spInsert (d x c : W64) : W64 :=
  let mask : W64 := BitVec.ofNat 64 ((2 ^ spLen c - 1) * 2 ^ spPos c)
  (d &&& ~~~mask) ||| ((x <<< spPos c) &&& mask)

/-- The register, the value and the latency of every integer word that does not divide (04 R81, R82, R85-R96). -/
def intSpec (s : State) : Instr → Option (RFile × Nat × W64 × Nat)
  | .add d a b => some (.s, d.toNat, BitVec.ofInt 64 ((s.rs a).toInt + (s.rs b).toInt), 1)
  | .sub d a b => some (.s, d.toNat, BitVec.ofInt 64 ((s.rs a).toInt - (s.rs b).toInt), 1)
  | .addi d a i => some (.s, d.toNat, BitVec.ofInt 64 ((s.rs a).toInt + i.toInt), 1)
  | .mul d a b => some (.s, d.toNat, BitVec.ofInt 64 ((s.rs a).toInt * (s.rs b).toInt), 3)
  | .mulh d a b => some (.s, d.toNat, BitVec.ofInt 64 ((s.rs a).toInt * (s.rs b).toInt / (2 ^ 64 : Nat)), 3)
  | .mulhu d a b => some (.s, d.toNat, BitVec.ofNat 64 ((s.rs a).toNat * (s.rs b).toNat / 2 ^ 64), 3)
  | .and d a b => some (.s, d.toNat, s.rs a &&& s.rs b, 1)
  | .or d a b => some (.s, d.toNat, s.rs a ||| s.rs b, 1)
  | .xor d a b => some (.s, d.toNat, s.rs a ^^^ s.rs b, 1)
  | .andn d a b => some (.s, d.toNat, s.rs a &&& ~~~(s.rs b), 1)
  | .andi d a i => some (.s, d.toNat, s.rs a &&& spImm i, 1)
  | .ori d a i => some (.s, d.toNat, s.rs a ||| spImm i, 1)
  | .xori d a i => some (.s, d.toNat, s.rs a ^^^ spImm i, 1)
  | .shl d a b => some (.s, d.toNat, spShl (s.rs a) (spAmount (s.rs b)), 1)
  | .shr d a b => some (.s, d.toNat, spShr (s.rs a) (spAmount (s.rs b)), 1)
  | .sra d a b => some (.s, d.toNat, spSra (s.rs a) (spAmount (s.rs b)), 1)
  | .shli d a i => some (.s, d.toNat, spShl (s.rs a) (spAmount (spImm i)), 1)
  | .shri d a i => some (.s, d.toNat, spShr (s.rs a) (spAmount (spImm i)), 1)
  | .srai d a i => some (.s, d.toNat, spSra (s.rs a) (spAmount (spImm i)), 1)
  | .rot d a b => some (.s, d.toNat, spRot (s.rs a) (spAmount (s.rs b)), 1)
  | .roti d a i => some (.s, d.toNat, spRot (s.rs a) (spAmount (spImm i)), 1)
  | .clz d a => some (.s, d.toNat, BitVec.ofNat 64 (if s.rs a = 0 then 64 else 63 - Nat.log2 (s.rs a).toNat), 1)
  | .ctz d a =>
    some (.s, d.toNat, BitVec.ofNat 64 (((List.range 64).find? (fun k => (s.rs a).getLsbD k)).getD 64), 1)
  | .popc d a => some (.s, d.toNat, BitVec.ofNat 64 ((List.range 64).filter (fun k => (s.rs a).getLsbD k)).length, 1)
  | .min d a b => some (.s, d.toNat, BitVec.ofInt 64 (Min.min (s.rs a).toInt (s.rs b).toInt), 1)
  | .max d a b => some (.s, d.toNat, BitVec.ofInt 64 (Max.max (s.rs a).toInt (s.rs b).toInt), 1)
  | .minu d a b => some (.s, d.toNat, BitVec.ofNat 64 (Min.min (s.rs a).toNat (s.rs b).toNat), 1)
  | .maxu d a b => some (.s, d.toNat, BitVec.ofNat 64 (Max.max (s.rs a).toNat (s.rs b).toNat), 1)
  | .sel d a b p => some (.s, d.toNat, if (s.rp p).getLsbD 0 then s.rs a else s.rs b, 1)
  | .cmpEq d a b => some (.s, d.toNat, spCmp 0 (s.rs a) (s.rs b), 1)
  | .cmpNe d a b => some (.s, d.toNat, spCmp 1 (s.rs a) (s.rs b), 1)
  | .cmpLt d a b => some (.s, d.toNat, spCmp 2 (s.rs a) (s.rs b), 1)
  | .cmpLtu d a b => some (.s, d.toNat, spCmp 3 (s.rs a) (s.rs b), 1)
  | .cmpLe d a b => some (.s, d.toNat, spCmp 4 (s.rs a) (s.rs b), 1)
  | .cmpLeu d a b => some (.s, d.toNat, spCmp 5 (s.rs a) (s.rs b), 1)
  | .cmpp q a b m c =>
    let t := spMask c.toNat (s.rs a) (s.rs b)
    some (.p, q.toNat, if m = 0 then t else if m = 1 then s.rp q &&& t else s.rp q ||| t, 1)
  | .movi d i => some (.s, d.toNat, BitVec.ofInt 64 i.toInt, 1)
  | .movs d i => some (.s, d.toNat, BitVec.ofNat 64 ((s.rs d).toNat * 2 ^ 15 + i.toNat), 1)
  | .addsh d a b m => some (.s, d.toNat, BitVec.ofNat 64 ((s.rs a).toNat + (s.rs b).toNat * 2 ^ m.toNat), 1)
  | .bfx d a b x => some (.s, d.toNat, if x = 1 then spFieldS (s.rs a) (s.rs b) else spField (s.rs a) (s.rs b), 1)
  | .bfi d a b => some (.s, d.toNat, spInsert (s.rs d) (s.rs a) (s.rs b), 1)
  | _ => none


/-! ## Divide words (04 R83, R84) and scalar floats (05) -/

/-- Quotient and remainder with 04 Table 4-8. -/
def spDiv (x y : W64) : W64 := if y = 0 then BitVec.ofNat 64 (2 ^ 64 - 1) else BitVec.ofInt 64 (x.toInt.tdiv y.toInt)
def spDivu (x y : W64) : W64 := if y = 0 then BitVec.ofNat 64 (2 ^ 64 - 1) else BitVec.ofNat 64 (x.toNat / y.toNat)
def spRem (x y : W64) : W64 := if y = 0 then x else BitVec.ofInt 64 (x.toInt - y.toInt * x.toInt.tdiv y.toInt)
def spRemu (x y : W64) : W64 := if y = 0 then x else BitVec.ofNat 64 (x.toNat - y.toNat * (x.toNat / y.toNat))
/-- The significant bits of a magnitude. -/
def spBits (m : Nat) : Nat := if m = 0 then 0 else Nat.log2 m + 1
/-- The cycles of a divide (04 R84): 4 + ⌈n/4⌉, and 4 in the cases of 04 Table 4-8. -/
def spCycles (signed : Bool) (x y : W64) : Nat :=
  if y = 0 ∨ (signed = true ∧ x.toInt = -2 ^ 63 ∧ y.toInt = -1) then 4
  else 4 + (spBits (if signed then x.toInt.natAbs else x.toNat) + 3) / 4

/-- Destination, dividend, divisor, result and cycles of a divide word. -/
def divSpec (s : State) : Instr → Option (BitVec 5 × W64 × W64 × W64 × Nat)
  | .div d a b => some (d, s.rs a, s.rs b, spDiv (s.rs a) (s.rs b), spCycles true (s.rs a) (s.rs b))
  | .divu d a b => some (d, s.rs a, s.rs b, spDivu (s.rs a) (s.rs b), spCycles false (s.rs a) (s.rs b))
  | .rem d a b => some (d, s.rs a, s.rs b, spRem (s.rs a) (s.rs b), spCycles true (s.rs a) (s.rs b))
  | .remu d a b => some (d, s.rs a, s.rs b, spRemu (s.rs a) (s.rs b), spCycles false (s.rs a) (s.rs b))
  | _ => none

/-- A scalar register read in a float format (05 R114). -/
def State.flt (s : State) (p : Prec) (r : BitVec 5) : Num := decodeFp (fmtOf p) (s.rs r).toNat
/-- The rounding mode of a word that takes no stochastic one: its field, or RMODE.MODE for `dyn` (05 R103). -/
def State.mode (s : State) (r : BitVec 3) : Nat :=
  let m := if r = 0 then s.cur.t.rmode.toNat % 8 else r.toNat
  if m = 6 then 1 else m
/-- RoundToFormat of an exact value, with the flags of the operation that gave it (05 R107). -/
def spRound (e : Exact) (p : Prec) (m : Nat) : Nat × BitVec 5 :=
  ((roundTo e.x (fmtOf p) m true 0).bits, e.flags ||| (roundTo e.x (fmtOf p) m true 0).flags)
/-- A value with the sign bit of its format replaced. -/
def spSign (p : Prec) (x : W64) (neg : Bool) : Nat := x.toNat % (fmtOf p).sign + (if neg then (fmtOf p).sign else 0)
/-- The sign bit of a register in a format. -/
def spNeg (p : Prec) (x : W64) : Bool := decide (x.toNat / (fmtOf p).sign % 2 = 1)
/-- The relation mask of `fcmp`: less, equal, greater, unordered (05 R122). -/
def spFcmp (x y : Num) : Nat × BitVec 5 :=
  if x.isNan = true ∨ y.isNan = true then (8, if x.sig = true ∨ y.sig = true then flNV else 0)
  else (if numLt x y then 1 else if numLt y x then 4 else 2, 0)

/-- Destination, result bits, flags and latency of every scalar float word of fixed latency but `fcvt.ff` (05 R118-R129). -/
def floatSpec (s : State) : Instr → Option (BitVec 5 × Nat × BitVec 5 × Nat)
  | .fadd d a b p r => let y := spRound (numAdd (s.flt p a) (s.flt p b) (s.mode r)) p (s.mode r); some (d, y.1, y.2, 4)
  | .fsub d a b p r => let y := spRound (numAdd (s.flt p a) (s.flt p b).neg (s.mode r)) p (s.mode r); some (d, y.1, y.2, 4)
  | .fmul d a b p r => let y := spRound (numMul (s.flt p a) (s.flt p b)) p (s.mode r); some (d, y.1, y.2, 4)
  | .fma d a b p r =>
    let y := spRound (numFma (s.flt p a) (s.flt p b) (s.flt p d) (s.mode r)) p (s.mode r); some (d, y.1, y.2, 4)
  | .fms d a b p r =>
    let y := spRound (numFma (s.flt p a) (s.flt p b) (s.flt p d).neg (s.mode r)) p (s.mode r); some (d, y.1, y.2, 4)
  | .fnma d a b p r =>
    let e := numFma (s.flt p a) (s.flt p b) (s.flt p d) (s.mode r)
    let y := spRound { e with x := e.x.neg } p (s.mode r); some (d, y.1, y.2, 4)
  | .fnms d a b p r =>
    let e := numFma (s.flt p a) (s.flt p b) (s.flt p d).neg (s.mode r)
    let y := spRound { e with x := e.x.neg } p (s.mode r); some (d, y.1, y.2, 4)
  | .fmin d a b p => let y := fminmax (fmtOf p) false (s.rs a).toNat (s.rs b).toNat; some (d, y.1, y.2, 2)
  | .fmax d a b p => let y := fminmax (fmtOf p) true (s.rs a).toNat (s.rs b).toNat; some (d, y.1, y.2, 2)
  | .fcmp d a b p => let y := spFcmp (s.flt p a) (s.flt p b); some (d, y.1, y.2, 2)
  | .fclass d a p => some (d, fclassMask (fmtOf p) (s.rs a).toNat, 0, 2)
  | .fsgnj d a b p => some (d, spSign p (s.rs a) (spNeg p (s.rs b)), 0, 2)
  | .fsgnn d a b p => some (d, spSign p (s.rs a) (!spNeg p (s.rs b)), 0, 2)
  | .fsgnx d a b p => some (d, spSign p (s.rs a) (spNeg p (s.rs a) ^^ spNeg p (s.rs b)), 0, 2)
  | .fcvtIf d a p r =>
    let y := roundTo (numOfInt (s.rs a).toInt) (fmtOf p) (s.mode r) true 0; some (d, y.bits, y.flags, 3)
  | .fcvtFi d a p r => let y := toIntFmt (s.flt p a) 64 (s.mode r) 0; some (d, y.bits, y.flags, 3)
  | .fmvx d a b p =>
    let w := (fmtOf p).width
    some (d, (s.rs a).toNat / 2 ^ (w * ((s.rs b).toNat % (64 / w))) % 2 ^ w, 0, 2)
  | _ => none

/-- Destination, result bits and flags of `fdiv` and `fsqrt`, with the cycles of 05 Table 5-17. -/
def floatDivSpec (s : State) : Instr → Option (BitVec 5 × Nat × BitVec 5 × Nat)
  | .fdiv d a b p r =>
    let y := spRound (numDiv (s.flt p a) (s.flt p b)) p (s.mode r)
    some (d, y.1, y.2, fdivCycles p false [(s.rs a).toNat, (s.rs b).toNat])
  | .fsqrt d a p r =>
    let y := spRound (numSqrt (s.flt p a)) p (s.mode r)
    some (d, y.1, y.2, fdivCycles p true [(s.rs a).toNat])
  | _ => none
/-- The state with RMODE.SRCTR stepped by some draws (05 R106). -/
def State.drewWords (s : State) (n : Nat) : State :=
  s.modCur (fun c => { c with t := { c.t with
    rmode := BitVec.ofNat 32 (srctrOf c.t.rmode + n) ++ c.t.rmode.extractLsb' 0 32 } })

/-! ## Vector words (13) -/

/-- Type, lane width in bytes and lanes of a slot of VTT (13 Tables 13-1, 13-2). -/
def State.vty (s : State) (t : BitVec 2) : Nat := s.cur.t.vtt.toNat / 2 ^ (8 * t.toNat) % 16
def State.vw (s : State) (t : BitVec 2) : Nat := widthOf (s.vty t)
def State.vn (s : State) (t : BitVec 2) : Nat := 64 / s.vw t
/-- Lane `k` of a register, as bits, as a signed integer and as a float of the slot's type. -/
def State.vl (s : State) (t : BitVec 2) (r : BitVec 5) (k : Nat) : Nat := laneAt (s.vw t) (s.cur.rv r) k
def State.vi (s : State) (t : BitVec 2) (r : BitVec 5) (k : Nat) : Int := sxBits (8 * s.vw t) (s.vl t r k)
def State.vf (s : State) (t : BitVec 2) (r : BitVec 5) (k : Nat) : Num := decodeFp (fmtOfType (s.vty t)) (s.vl t r k)
/-- Bit `k` of a predicate. -/
def State.vp (s : State) (p : BitVec 3) (k : Nat) : Bool := (s.rp p).getLsbD k
/-- The rounding mode of a lane operation: `sr` acts as `rne` (13 R303). -/
def State.vmode (s : State) : Nat := s.mode 0
/-- An integer lane wraps and sets no flag; a float lane is rounded once (13 R303). -/
def State.vwrap (s : State) (t : BitVec 2) (x : Int) : LaneRes := ((x % (2 ^ (8 * s.vw t) : Nat)).toNat, 0)
def State.vround (s : State) (t : BitVec 2) (e : Exact) : LaneRes :=
  let y := roundTo e.x (fmtOfType (s.vty t)) s.vmode true 0
  (y.bits, e.flags ||| y.flags)
/-- The value of a class-I or class-F operation. -/
def State.varith (s : State) (t : BitVec 2) (x : Int) (e : Exact) : LaneRes :=
  if s.vty t ≤ 3 then s.vwrap t x else s.vround t e
/-- The bits of a lane, cut to the lane's width, with no flag. -/
def State.vbits (s : State) (t : BitVec 2) (x : Nat) : LaneRes := (x % 2 ^ (8 * s.vw t), 0)
/-- The shifts of a lane (13 R309): 04 R86 with the lane's width. -/
def State.vshlOf (s : State) (t : BitVec 2) (x k : Nat) : LaneRes := s.vbits t (x * 2 ^ k)
def State.vshrOf (s : State) (t : BitVec 2) (x k : Nat) : LaneRes := s.vbits t (x / 2 ^ k)
def State.vsraOf (s : State) (t : BitVec 2) (x : Int) (k : Nat) : LaneRes := s.vwrap t (x / (2 ^ k : Nat))

/-- The significand bits of a float type, without the leading one (05 Table 5-1, 13 Table 13-2). -/
def spSig (ty : Nat) : Option Nat := [none, none, none, none, some 7, some 10, some 23, some 52, some 3, some 2].getD ty none
/-- The rounding mode of `vcvt` (13 R314): `sr` only into a narrower significand, else `rne`. -/
def State.cvtRounding (s : State) (t e : BitVec 2) : Nat :=
  let mode := s.cur.t.rmode.toNat % 8
  match spSig (s.vty t), spSig (s.vty e) with
  | some x, some y => if mode = 6 ∧ x ≤ y then 1 else mode
  | _, _ => if mode = 6 then 1 else mode
/-- How many stochastic words the items before one have drawn, where item `j` draws `n j u` after `u` draws (05 R106). -/
def spDrawn (n : Nat → Nat → Nat) : Nat → Nat
  | 0 => 0
  | j + 1 => spDrawn n j + n j (spDrawn n j)
/-- What `vcvt` makes of its item `j` after `u` draws, and the draws before an item (13 R314). -/
def State.cvtLane (s : State) (a : BitVec 5) (h : BitVec 1) (e t : BitVec 2) (j u : Nat) : Rounded :=
  let from_ := if s.vw t < s.vw e ∧ h = 1 then j + 64 / s.vw e else j
  roundToType (decodeType (s.vty t) (s.vl t a from_)) (s.vty e) (s.cvtRounding t e) (slotOvf s.cur e) (s.cur.srWord u)
def State.cvtDraws (s : State) (a : BitVec 5) (h : BitVec 1) (e : BitVec 2) (p : BitVec 3) (t : BitVec 2) : Nat → Nat :=
  spDrawn (fun j u => if s.vp p j && (s.cvtLane a h e t j u).drew then 1 else 0)
/-- The block of `vcvtb`'s group `g` after `u` draws (05 R108, 13 R315), and the draws before a group. -/
def State.encGroup (s : State) (a : BitVec 5) (t : BitVec 2) (g u : Nat) : Nat × List Nat × BitVec 5 × Nat :=
  blockScale ((List.range 16).map (fun k => s.vf t a (16 * g + k))) (s.cur.t.rmode.toNat % 8) (slotOvf s.cur t)
    (fun k => s.cur.srWord (u + k))
def State.encDraws (s : State) (a : BitVec 5) (t : BitVec 2) : Nat → Nat := spDrawn (fun g u => (s.encGroup a t g u).2.2.2)
/-- A predicated word that writes a vector register lane by lane: destination, predicate, slot, latency, and the result of an
active lane (13 R307-R312, R316-R318). -/
def vecSpec (s : State) : Instr → Option (BitVec 5 × BitVec 3 × BitVec 2 × Nat × (Nat → LaneRes))
  | .vadd d a b p t => some (d, p, t, arithLat (s.vty t), fun k =>
      s.varith t (s.vi t a k + s.vi t b k) (numAdd (s.vf t a k) (s.vf t b k) s.vmode))
  | .vsub d a b p t => some (d, p, t, arithLat (s.vty t), fun k =>
      s.varith t (s.vi t a k - s.vi t b k) (numAdd (s.vf t a k) (s.vf t b k).neg s.vmode))
  | .vmul d a b p t => some (d, p, t, arithLat (s.vty t), fun k =>
      s.varith t (s.vi t a k * s.vi t b k) (numMul (s.vf t a k) (s.vf t b k)))
  | .vfma d a b p t => some (d, p, t, arithLat (s.vty t), fun k =>
      s.varith t (s.vi t a k * s.vi t b k + s.vi t d k) (numFma (s.vf t a k) (s.vf t b k) (s.vf t d k) s.vmode))
  | .vfms d a b p t => some (d, p, t, arithLat (s.vty t), fun k =>
      s.varith t (s.vi t a k * s.vi t b k - s.vi t d k) (numFma (s.vf t a k) (s.vf t b k) (s.vf t d k).neg s.vmode))
  | .vfnma d a b p t => some (d, p, t, arithLat (s.vty t), fun k =>
      let e := numFma (s.vf t a k) (s.vf t b k) (s.vf t d k) s.vmode
      s.varith t (-(s.vi t a k * s.vi t b k + s.vi t d k)) { e with x := e.x.neg })
  | .vrcp d a p t => some (d, p, t, 6, fun k => s.vround t (numDiv (.fin false 1 1) (s.vf t a k)))
  | .vrsqrt d a p t => some (d, p, t, 6, fun k =>
      rsqrtLane { ty := s.vty t, w := s.vw t, rm := s.vmode } (s.vl t a k))
  | .vexp2 d a p t => some (d, p, t, 6, fun k =>
      exp2Lane { ty := s.vty t, w := s.vw t, rm := s.vmode } (s.vl t a k))
  | .vmin d a b p t => some (d, p, t, arithLat (s.vty t), fun k =>
      if s.vty t ≤ 3 then s.vwrap t (min (s.vi t a k) (s.vi t b k))
      else fminmax (fmtOfType (s.vty t)) false (s.vl t a k) (s.vl t b k))
  | .vmax d a b p t => some (d, p, t, arithLat (s.vty t), fun k =>
      if s.vty t ≤ 3 then s.vwrap t (max (s.vi t a k) (s.vi t b k))
      else fminmax (fmtOfType (s.vty t)) true (s.vl t a k) (s.vl t b k))
  | .vabs d a p t => some (d, p, t, arithLat (s.vty t), fun k =>
      if s.vty t ≤ 3 then s.vwrap t (s.vi t a k).natAbs else (s.vl t a k % (fmtOfType (s.vty t)).sign, 0))
  | .vneg d a p t => some (d, p, t, arithLat (s.vty t), fun k =>
      let g := (fmtOfType (s.vty t)).sign
      if s.vty t ≤ 3 then s.vwrap t (-(s.vi t a k))
      else (if s.vl t a k / g % 2 = 1 then s.vl t a k % g else s.vl t a k % g + g, 0))
  | .vand d a b p t => some (d, p, t, 2, fun k => s.vbits t (s.vl t a k &&& s.vl t b k))
  | .vor d a b p t => some (d, p, t, 2, fun k => s.vbits t (s.vl t a k ||| s.vl t b k))
  | .vxor d a b p t => some (d, p, t, 2, fun k => s.vbits t (s.vl t a k ^^^ s.vl t b k))
  | .vandn d a b p t => some (d, p, t, 2, fun k =>
      s.vbits t (s.vl t a k &&& (2 ^ (8 * s.vw t) - 1 - s.vl t b k)))
  | .vshl d a b p t => some (d, p, t, 2, fun k => s.vshlOf t (s.vl t a k) (s.vl t b k % 256))
  | .vshr d a b p t => some (d, p, t, 2, fun k => s.vshrOf t (s.vl t a k) (s.vl t b k % 256))
  | .vsra d a b p t => some (d, p, t, 2, fun k => s.vsraOf t (s.vi t a k) (s.vl t b k % 256))
  | .vshli d a i p t => some (d, p, t, 2, fun k => s.vshlOf t (s.vl t a k) i.toNat)
  | .vshri d a i p t => some (d, p, t, 2, fun k => s.vshrOf t (s.vl t a k) i.toNat)
  | .vsrai d a i p t => some (d, p, t, 2, fun k => s.vsraOf t (s.vi t a k) i.toNat)
  | .vperm d a b p t => some (d, p, t, 2, fun k => (s.vl t a (s.vl t b k % s.vn t), 0))
  | .vbcast d a p t => some (d, p, t, 2, fun _ => s.vbits t (s.rs a).toNat)
  | .vsat d a b p t => some (d, p, t, 3, fun k =>
      let m : Int := (2 ^ (8 * s.vw t - 1) : Nat)
      s.vwrap t (min (max (s.vi t a k + s.vi t b k) (-m)) (m - 1)))
  | .viota d a p t => some (d, p, t, 2, fun k =>
      (((List.range k).filter (fun j => (s.rp a).getLsbD j)).length, 0))
  | .vdot4 d a b p t => some (d, p, t, 4, fun k =>
      let byte (r : BitVec 5) (j : Nat) : Int := sxBits 8 (s.vl t r k / 2 ^ (8 * j))
      s.vwrap t (s.vi t d k + (byte a 0 * byte b 0 + byte a 1 * byte b 1 + byte a 2 * byte b 2 + byte a 3 * byte b 3)))
  | _ => none

/-- A word that writes every lane of a vector register: destination, slot and lanes (13 R311, R312, R317). -/
def vecWhole (s : State) : Instr → Option (BitVec 5 × BitVec 2 × (Nat → Nat))
  | .vsel d a b p t => some (d, t, fun k => if s.vp p k then s.vl t a k else s.vl t b k)
  | .vins d a b t => some (d, t, fun k =>
      if k = (s.rs b).toNat % s.vn t then (s.rs a).toNat % 2 ^ (8 * s.vw t) else s.vl t d k)
  | .vmovp d a r t => if r = 1 then
      some (d, t, fun k => if s.vp (BitVec.ofNat 3 a.toNat) k then 2 ^ (8 * s.vw t) - 1 else 0) else none
  | _ => none

/-- The lane relation of a compare (13 R310), with its flags. -/
def State.vrel (s : State) (t : BitVec 2) (a b : BitVec 5) (k : Nat) (int : Bool) (flt : Bool) (unord : Bool) :
    Bool × BitVec 5 :=
  if s.vty t ≤ 3 then (int, 0)
  else if (s.vf t a k).isNan = true ∨ (s.vf t b k).isNan = true then
    (unord, if (s.vf t a k).sig = true ∨ (s.vf t b k).sig = true then flNV else 0)
  else (flt, 0)

/-- A compare: destination predicate, selecting predicate, slot and relation. -/
def vecCmp (s : State) : Instr → Option (BitVec 3 × BitVec 3 × BitVec 2 × (Nat → Bool × BitVec 5))
  | .vceq q a b p t => some (q, p, t, fun k => s.vrel t a b k (decide (s.vi t a k = s.vi t b k))
      (!numLt (s.vf t a k) (s.vf t b k) && !numLt (s.vf t b k) (s.vf t a k)) false)
  | .vcne q a b p t => some (q, p, t, fun k => s.vrel t a b k (decide (s.vi t a k ≠ s.vi t b k))
      (numLt (s.vf t a k) (s.vf t b k) || numLt (s.vf t b k) (s.vf t a k)) true)
  | .vclt q a b p t => some (q, p, t, fun k => s.vrel t a b k (decide (s.vi t a k < s.vi t b k))
      (numLt (s.vf t a k) (s.vf t b k)) false)
  | .vcle q a b p t => some (q, p, t, fun k => s.vrel t a b k (decide (s.vi t a k ≤ s.vi t b k))
      (!numLt (s.vf t b k) (s.vf t a k)) false)
  | _ => none

/-- The pairwise tree of a reduction (13 R313), with the flags of its operations. -/
def spTree (f : Nat → Nat → LaneRes) : Nat → List Nat → LaneRes
  | 0, l => (l.headD 0, 0)
  | n + 1, l =>
    if l.length ≤ 1 then (l.headD 0, 0)
    else
      let m := l.length / 2
      let r := (List.range m).map (fun j => f (l.getD (2 * j) 0) (l.getD (2 * j + 1) 0))
      let y := spTree f n (r.map (·.1))
      (y.1, r.foldl (fun a x => a ||| x.2) y.2)

/-- A reduction: destination, source, predicate, slot, the identity and the operation of two lanes. -/
def vecRed (s : State) : Instr → Option (BitVec 5 × BitVec 5 × BitVec 3 × BitVec 2 × Nat × Bool × (Nat → Nat → LaneRes))
  | .vredAdd d a p t =>
    let f := fmtOfType (s.vty t)
    some (d, a, p, t, if s.vty t ≤ 3 then 0 else f.sign, decide (s.vty t ≤ 3), fun x y =>
      if s.vty t ≤ 3 then s.vbits t (x + y) else s.vround t (numAdd (decodeFp f x) (decodeFp f y) s.vmode))
  | .vredMax d a p t =>
    let f := fmtOfType (s.vty t)
    some (d, a, p, t, if s.vty t ≤ 3 then 2 ^ (8 * s.vw t - 1) else f.sign + f.inf, decide (s.vty t ≤ 3), fun x y =>
      if s.vty t ≤ 3 then (if sxBits (8 * s.vw t) x < sxBits (8 * s.vw t) y then y else x, 0) else fminmax f true x y)
  | .vredMin d a p t =>
    let f := fmtOfType (s.vty t)
    some (d, a, p, t, if s.vty t ≤ 3 then 2 ^ (8 * s.vw t - 1) - 1 else f.inf, decide (s.vty t ≤ 3), fun x y =>
      if s.vty t ≤ 3 then (if sxBits (8 * s.vw t) y < sxBits (8 * s.vw t) x then y else x, 0) else fminmax f false x y)
  | .vredOr d a p t => some (d, a, p, t, 0, false, fun x y => s.vbits t (x ||| y))
  | _ => none

/-- A word without flags that writes a scalar or a predicate register from lanes or predicates: file, register and value
(13 R312, R317). -/
def vecMove (s : State) : Instr → Option (RFile × Nat × W64)
  | .vext d a b t => some (.s, d.toNat, BitVec.ofNat 64 (s.vl t a ((s.rs b).toNat % s.vn t)))
  | .vpand d a b => some (.p, d.toNat, s.rp a &&& s.rp b)
  | .vpor d a b => some (.p, d.toNat, s.rp a ||| s.rp b)
  | .vpnot d a => some (.p, d.toNat, ~~~(s.rp a))
  | .vpopc d a p t => some (.s, d.toNat,
      BitVec.ofNat 64 ((List.range (s.vn t)).filter (fun k => s.vp a k && s.vp p k)).length)
  | .vmovp d a r t => if r = 0 then some (.p, d.toNat % 8,
      BitVec.ofNat 64 ((List.range (s.vn t)).foldl (fun x k => x + (if s.vl t a k % 2 = 1 then 2 ^ k else 0)) 0)) else none
  | _ => none

/-- No register of the word is bound to a stream. -/
def Unbound (i : Instr) (s : State) : Prop := s.cur.popsOf i = [] ∧ s.cur.pushOf i = none
/-- The strips that the word takes from streams are there, and it names no bound register as its destination (13 R325). -/
def Sourced (i : Instr) (s : State) : Prop :=
  s.cur.pushOf i = none ∧ ∀ r ∈ s.cur.popsOf i, ∃ q e rest, s.cur.streamOf r = some q ∧ q.write = false ∧ q.pos < q.length
    ∧ q.fetched = e :: rest ∧ e.trap = none
/-- The strip that a pop of a stream gives, decoded, and how often code 2 stands in it (07 R166). -/
def State.stripOf (s : State) (q : Stream) : W512 × Nat :=
  decodeWindow (s.fmtAt (q.addr q.pos)) ((q.fetched.head?.map (·.bytes)).getD [])
/-- The thread with a vector register that holds a value. -/
def Thread.shows (t : Thread) (r : Nat) (x : W512) : Thread :=
  { t.setFile .v r x with pend := t.pend.filter (fun e => !e.is .v r) }
/-- The state in which each bound source register of the word holds the strip that its pop gives. -/
def State.showing (s : State) (i : Instr) : State :=
  if s.cur.popsOf i = [] then s
  else s.modCur (fun c =>
    let t := (c.popsOf i).foldl (fun (t : Thread) r => match c.streamOf r with
      | some q => t.shows r (s.stripOf q).1
      | none => t) c.t
    { c with t := t })
/-- The state after the word's pops: each stream one strip on, and TERNBAD counted (13 R325, R326, 07 R166). -/
def State.popping (s : State) (i : Instr) : State :=
  (s.cur.popsOf i).foldl (fun (u : State) r => match u.cur.streamOf r with
    | some q => u.modCur (fun c => { c.setStream r (some (q.popped s.time)) with ternbad := c.ternbad + BitVec.ofNat 32 (s.stripOf q).2 })
    | none => u) s

/-! ## Branches, jumps, traps and special registers (06) -/

/-- The address of the bundle that holds the word. -/
def State.bundleOf (s : State) : W64 := BitVec.ofNat 64 (s.cur.iss.pc.toNat / 8 * 8)

/-- Displacement and condition of a branch outside a cordon (06 R149). -/
def branchSpec (s : State) : Instr → Option (BitVec 10 × Bool)
  | .brEq a b i => some (i, decide (s.rs a = s.rs b))
  | .brNe a b i => some (i, decide (s.rs a ≠ s.rs b))
  | .brLt a b i => some (i, decide ((s.rs a).toInt < (s.rs b).toInt))
  | .brLtu a b i => some (i, decide ((s.rs a).toNat < (s.rs b).toNat))
  | .brGe a b i => some (i, decide ((s.rs b).toInt ≤ (s.rs a).toInt))
  | .brGeu a b i => some (i, decide ((s.rs b).toNat ≤ (s.rs a).toNat))
  | .brp n m i => some (i, match m.toNat with
    | 0 => (s.rp n).getLsbD 0
    | 1 => !(s.rp n).getLsbD 0
    | 2 => decide (s.rp n ≠ 0)
    | _ => decide (s.rp n = 0))
  | _ => none

/-- The view of a special register at the level of the running core (06 Table 6-1, Table 6-2; 07 R171). A number that the table
does not give reads 0; its word does not issue. -/
def csrSpec (s : State) (n : Nat) : W64 :=
  let c := s.cur
  if n = 0x000 then
    (0#52 ++ c.pl ++ BitVec.ofBool c.yreq ++ BitVec.ofBool (s.isDet c) ++ 0#4 ++ c.t.homepol ++ BitVec.ofBool c.dzt
      ++ BitVec.ofBool c.check : BitVec 64)
  else if n = 0x001 then s.caps
  else if n = 0x002 then (0#59 ++ c.flagsRead : BitVec 64)
  else if n = 0x003 then c.iss.rmode
  else if n = 0x004 then c.t.vtt
  else if n = 0x005 then (0#48 ++ c.t.scaleb : BitVec 64)
  else if 0x006 ≤ n ∧ n ≤ 0x009 then c.iss.before.sdepth (n - 6)
  else if n = 0x00A then (0#60 ++ c.lane : BitVec 64)
  else if n = 0x00B then (0#59 ++ c.cordsz : BitVec 64)
  else if n = 0x00C then (0#32 ++ c.ctxid : BitVec 64)
  else if n = 0x00D then (0#31 ++ BitVec.ofBool c.supv ++ c.region : BitVec 64)
  else if n = 0x00E then (0#32 ++ c.t.w : BitVec 64)
  else if n = 0x00F then (0#32 ++ c.iss.ternbad : BitVec 64)
  else if n = 0x010 then s.quantum c
  else if n = 0x011 then s.caskrf s.ev.core
  else if n = 0x012 then BitVec.ofNat 64 s.time
  else if n = 0x013 then BitVec.ofNat 64 s.cycle
  else if n = 0x014 then c.iss.instret
  else if 0x100 ≤ n ∧ n ≤ 0x106 ∧ c.pl = 0 then 0
  else if n = 0x100 then c.tvec
  else if n = 0x101 then c.tcause
  else if n = 0x102 then c.tval
  else if n = 0x103 then c.tpc
  else if n = 0x104 then s.flagsum c s.ev.core
  else if n = 0x105 then ((s.ctxOf c).map (fun x => (0#32 ++ x.voidcnt : BitVec 64))).getD 0
  else if n = 0x106 then c.sscratch
  else if c.pl ≠ 2 then 0
  else if n = 0x200 then c.mvec
  else if n = 0x201 then c.mscratch
  else 0

/-- The special registers that no write changes at a level (06 Table 6-1). -/
def csrReadOnly (pl : BitVec 2) (free : Bool) (n : Nat) : Prop :=
  n = 0x001 ∨ (0x006 ≤ n ∧ n ≤ 0x00C) ∨ n = 0x00E ∨ (0x010 ≤ n ∧ n ≤ 0x014) ∨ n = 0x105
    ∨ (n = 0x00D ∧ ¬ (pl = 2 ∧ free = true)) ∨ (pl = 0 ∧ (n = 0x00F ∨ (0x100 ≤ n ∧ n ≤ 0x106)))
    ∨ (pl ≠ 2 ∧ (n = 0x200 ∨ n = 0x201))

/-- What a write of a special register makes of the core that retires the word (06 Tables 6-1, 6-2, 6-4, 6-5; 05 Table 5-7; 13
Table 13-1). -/
inductive CsrStores (pl : BitVec 2) (c : Core) (x : W64) : Nat → Core → Prop where
  | ctlUser : pl = 0 → CsrStores pl c x 0x000
      { c with t := { c.t with homepol := if x.toNat / 4 % 4 = 3 then 0 else BitVec.ofNat 2 (x.toNat / 4 % 4) } }
  | ctl : pl ≠ 0 → CsrStores pl c x 0x000
      { c with t := { c.t with homepol := if x.toNat / 4 % 4 = 3 then 0 else BitVec.ofNat 2 (x.toNat / 4 % 4) }
               dzt := decide (x.toNat / 2 % 2 = 1), check := decide (x.toNat % 2 = 1) }
  | flags : CsrStores pl c x 0x002
      { c with t := { c.t with flags := BitVec.ofNat 5 (x.toNat % 32)
                               pendFlags := c.t.pendFlags.filter (fun e => !decide (e.issued < c.iss.nom)) } }
  | rmode : CsrStores pl c x 0x003
      { c with t := { c.t with rmode := (x &&& 0xFFFF_FFFF_0000_0070)
                                 ||| (if x.toNat % 8 = 0 ∨ x.toNat % 8 = 7 then 1 else BitVec.ofNat 64 (x.toNat % 8)) } }
  | scaleb : CsrStores pl c x 0x005 { c with t := { c.t with scaleb := BitVec.ofNat 16 x.toNat } }
  | region : pl = 2 → c.ctxid = 0 → CsrStores pl c x 0x00D
      { c with region := BitVec.ofNat 32 x.toNat, supv := x.getLsbD 32 }
  | ternbad : pl ≠ 0 → CsrStores pl c x 0x00F { c with ternbad := BitVec.ofNat 32 x.toNat }
  | tvec : pl ≠ 0 → CsrStores pl c x 0x100 { c with tvec := x &&& 0x00FF_FFFF_FFFF_FFF8 }
  | tcause : pl ≠ 0 → CsrStores pl c x 0x101
      { c with tcause := (x &&& 0xFFC0_00FF) ||| BitVec.ofNat 64 (2 ^ 20 * min (x.toNat / 2 ^ 20 % 4) pl.toNat) }
  | tval : pl ≠ 0 → CsrStores pl c x 0x102 { c with tval := x }
  | tpc : pl ≠ 0 → CsrStores pl c x 0x103 { c with tpc := x &&& 0x00FF_FFFF_FFFF_FFFF }
  | sscratch : pl ≠ 0 → CsrStores pl c x 0x106 { c with sscratch := x }
  | mvec : pl = 2 → CsrStores pl c x 0x200 { c with mvec := x &&& 0x00FF_FFFF_FFFF_FFF8 }
  | mscratch : pl = 2 → CsrStores pl c x 0x201 { c with mscratch := x }

/-- An earlier `fdiv` or `fsqrt` has still to set its flags (05 R110, R130). -/
def FloatDivOut (s : State) : Prop := ∃ q, s.cur.t.div = some q ∧ q.float = true ∧ q.issued < s.cur.iss.nom

/-- The contributions to FLAGSUM.ACC of a region and supergroup in this cycle, which a clear leaves set (05 R112). -/
def State.accNew (s : State) (k : Nat) : BitVec 5 :=
  (s.flagNew.filter (fun e => decide (e.1 = k) && decide (e.2.1 = s.cycle))).foldl (fun (f : BitVec 5) e => f ||| e.2.2) 0

/-- What a write of a special register makes of the state, but for the slot's advance (06 Table 6-1, 05 R112, 13 Table 13-1). -/
structure CsrWritten (s : State) (n : Nat) (x : W64) (u : State) : Prop where
  kept : csrReadOnly s.cur.pl (decide (s.cur.ctxid = 0)) n → u = s.retire
  stored : ∀ c, CsrStores s.cur.pl (s.retire.csrDelay n).cur x n c → u = s.setCur c
  flagsum : n = 0x104 → s.cur.pl ≠ 0 → u = { s.retire with flagAcc := u.flagAcc }
    ∧ ∀ k, FMap.getD u.flagAcc k 0 = if k = s.cur.region.toNat * 64 + s.ev.core / 64
        then (FMap.getD s.flagAcc k 0 &&& ~~~(x.extractLsb' 8 5)) ||| s.accNew k else FMap.getD s.flagAcc k 0
  vtt : n = 0x004 → u = s.retire.modCur (fun c => { c with t := { c.t with vtt := u.cur.t.vtt } })
    ∧ u.cur.t.vtt.getLsbD 32 = x.getLsbD 32 ∧ u.cur.t.vtt.toNat / 2 ^ 33 = 0
    ∧ ∀ k : Nat, k < 4 → let b := x.toNat / 2 ^ (8 * k) % 256
        u.cur.t.vtt.toNat / 2 ^ (8 * k) % 256 = b / 16 % 4 * 16 + if 10 ≤ b % 16 then 0 else b % 16

/-- The core enters a trap (06 R140): where it saves, at which level it goes on and where; the thread's results are complete
and every other register is kept. -/
structure Enters (s t : State) (code : BitVec 8) (tval resume : W64) (async : Bool) (level : BitVec 2) (pc : W64) : Prop where
  only : OnlyCur s t
  pl : t.cur.pl = level
  pc : t.cur.t.pc = pc
  tpc : t.cur.tpc.toNat = resume.toNat % 2 ^ 56
  tval : t.cur.tval = tval
  code : t.cur.tcause.extractLsb' 0 8 = code
  ppl : t.cur.tcause.extractLsb' 20 2 = s.cur.pl
  async : t.cur.tcause.getLsbD 22 = async
  rest : t.cur.tcause &&& 0xFFFF_FFFF_FF8F_FF00 = 0
  nom : t.cur.t.nom = 0
  regs : t.cur.t.s = s.cur.t.finish.s ∧ t.cur.t.v = s.cur.t.finish.v ∧ t.cur.t.p = s.cur.t.finish.p
    ∧ t.cur.t.flags = s.cur.t.finish.flags ∧ t.cur.t.div = none ∧ t.cur.t.pendFlags = []
  kept : SameThread s.cur.t t.cur.t ∧ t.cur.ctxid = s.cur.ctxid ∧ t.cur.region = s.cur.region ∧ t.cur.supv = s.cur.supv
    ∧ t.cur.tvec = s.cur.tvec ∧ t.cur.mvec = s.cur.mvec ∧ t.cur.sscratch = s.cur.sscratch ∧ t.cur.mscratch = s.cur.mscratch
    ∧ t.cur.check = s.cur.check ∧ t.cur.dzt = s.cur.dzt ∧ t.cur.ternbad = s.cur.ternbad ∧ t.cur.plb = s.cur.plb
    ∧ t.cur.mem = s.cur.mem ∧ t.cur.inbox = s.cur.inbox

/-- A member of a cordon, at user level before, enters the trap that the cordon takes (06 R140, R144): with the PC at its TVEC, CORD
set, and the lowest lane that has a cause in FMEMBER. -/
structure CordonEnters (c d : Core) (code : BitVec 8) (tval resume : W64) (lane : Nat) : Prop where
  pl : d.pl = 1
  run : d.run = .running
  pc : d.t.pc = c.tvec
  tpc : d.tpc.toNat = resume.toNat % 2 ^ 56
  tval : d.tval = tval
  code : d.tcause.extractLsb' 0 8 = code
  ppl : d.tcause.extractLsb' 20 2 = 0
  sync : d.tcause.getLsbD 22 = false
  cord : d.tcause.getLsbD 23 = true
  fmember : (d.tcause.extractLsb' 24 8).toNat = lane
  regs : d.t.s = c.t.finish.s ∧ d.t.v = c.t.finish.v ∧ d.t.p = c.t.finish.p ∧ d.t.flags = c.t.finish.flags
  kept : SameThread c.t d.t ∧ d.ctxid = c.ctxid ∧ d.tvec = c.tvec ∧ d.leader = c.leader ∧ d.members = c.members
    ∧ d.instret = c.instret ∧ d.mem = c.mem

/-! ## Memory words (07 R186-R194) -/

/-- A register offset form adds imm10 times the size (07 R187). -/
def spOff (x : W64) (i : BitVec 10) (n : Nat) : W64 := BitVec.ofInt 64 (x.toInt + i.toInt * (n : Int))

/-- Destination, address, size, sign extension, handle, ordering, scope and hint of a load. -/
def loadSpec (s : State) : Instr → Option (BitVec 5 × W64 × Nat × Bool × BitVec 4 × Ord × Scope × Hint)
  | .ldB d b h o c n => some (d, s.rs b, 1, true, h, o, c, n)
  | .ldBz d b h o c n => some (d, s.rs b, 1, false, h, o, c, n)
  | .ldH d b h o c n => some (d, s.rs b, 2, true, h, o, c, n)
  | .ldHz d b h o c n => some (d, s.rs b, 2, false, h, o, c, n)
  | .ldW d b h o c n => some (d, s.rs b, 4, true, h, o, c, n)
  | .ldWz d b h o c n => some (d, s.rs b, 4, false, h, o, c, n)
  | .ldD d b h o c n => some (d, s.rs b, 8, false, h, o, c, n)
  | .ldoB d b i => some (d, spOff (s.rs b) i 1, 1, true, 0, .plain, .dev, .default)
  | .ldoBz d b i => some (d, spOff (s.rs b) i 1, 1, false, 0, .plain, .dev, .default)
  | .ldoH d b i => some (d, spOff (s.rs b) i 2, 2, true, 0, .plain, .dev, .default)
  | .ldoHz d b i => some (d, spOff (s.rs b) i 2, 2, false, 0, .plain, .dev, .default)
  | .ldoW d b i => some (d, spOff (s.rs b) i 4, 4, true, 0, .plain, .dev, .default)
  | .ldoWz d b i => some (d, spOff (s.rs b) i 4, 4, false, 0, .plain, .dev, .default)
  | .ldoD d b i => some (d, spOff (s.rs b) i 8, 8, false, 0, .plain, .dev, .default)
  | _ => none

/-- Data register, address, size, handle, ordering, scope and hint of a store. -/
def storeSpec (s : State) : Instr → Option (BitVec 5 × W64 × Nat × BitVec 4 × Ord × Scope × Hint)
  | .stB d b h o c n => some (d, s.rs b, 1, h, o, c, n)
  | .stH d b h o c n => some (d, s.rs b, 2, h, o, c, n)
  | .stW d b h o c n => some (d, s.rs b, 4, h, o, c, n)
  | .stD d b h o c n => some (d, s.rs b, 8, h, o, c, n)
  | .stoB d b i => some (d, spOff (s.rs b) i 1, 1, 0, .plain, .dev, .default)
  | .stoH d b i => some (d, spOff (s.rs b) i 2, 2, 0, .plain, .dev, .default)
  | .stoW d b i => some (d, spOff (s.rs b) i 4, 4, 0, .plain, .dev, .default)
  | .stoD d b i => some (d, spOff (s.rs b) i 8, 8, 0, .plain, .dev, .default)
  | _ => none

/-- Register, address, operation, handle, ordering, scope and hint of an atomic (07 Table 7-12). -/
def amoSpec (s : State) : Instr → Option (BitVec 5 × W64 × Nat × BitVec 4 × Ord × Scope × Hint)
  | .amoAdd d b h o c n => some (d, s.rs b, 0, h, o, c, n)
  | .amoAnd d b h o c n => some (d, s.rs b, 1, h, o, c, n)
  | .amoOr d b h o c n => some (d, s.rs b, 2, h, o, c, n)
  | .amoXor d b h o c n => some (d, s.rs b, 3, h, o, c, n)
  | .amoMax d b h o c n => some (d, s.rs b, 4, h, o, c, n)
  | .amoMin d b h o c n => some (d, s.rs b, 5, h, o, c, n)
  | .amoMaxu d b h o c n => some (d, s.rs b, 6, h, o, c, n)
  | .amoMinu d b h o c n => some (d, s.rs b, 7, h, o, c, n)
  | .amoSwap d b h o c n => some (d, s.rs b, 8, h, o, c, n)
  | .cas d b h o c n => some (d, s.rs b, 9, h, o, c, n)
  | _ => none

/-- A value that an atomic writes, from the old one and its operand (07 Table 7-12); `cas` has a comparand and a new value. -/
def spAmo (op : Nat) (old x new : Nat) : Nat :=
  let m := 2 ^ 64
  let sg (v : Nat) : Int := (BitVec.ofNat 64 v).toInt
  match op with
  | 0 => (old + x) % m
  | 1 => (BitVec.ofNat 64 old &&& BitVec.ofNat 64 x).toNat
  | 2 => (BitVec.ofNat 64 old ||| BitVec.ofNat 64 x).toNat
  | 3 => (BitVec.ofNat 64 old ^^^ BitVec.ofNat 64 x).toNat
  | 4 => if sg old < sg x then x else old
  | 5 => if sg x < sg old then x else old
  | 6 => max old x
  | 7 => min old x
  | 8 => x
  | _ => if old = x then new else old

/-- The handle that an h field names. -/
def State.handle (s : State) (h : BitVec 4) : Option Handle := if h = 0 then none else s.cur.t.h[h.toNat]'h.isLt

/-- The locations of `n` bytes from an address. -/
def State.spLocs (s : State) (a : W64) (n : Nat) : List Nat :=
  (List.range n).map (fun k => s.locate (BitVec.ofNat 64 (a.toNat + k)))

/-- The bytes in memory of the `n` lines from an address that are cached. -/
def State.homeBytes (s : State) (a : W64) (n : Nat) : List Nat :=
  (List.range n).flatMap (fun k => match FMap.get? s.cache (a.toNat / 64 + k) with
    | some l => (List.range 64).map (l.pa + ·)
    | none => [])

/-- The fields of an access that has only entered the order: nothing of it is performed. -/
structure Fresh (s : State) (x : Access) (a : W64) (locs : List Nat) (h : BitVec 4) (o : Ord) (c : Scope) (hint : Hint) : Prop where
  addr : x.addr = a
  bytes : x.bytes = locs
  handle : x.handle = s.handle h
  ord : x.ord = o
  scope : x.scope = c
  hint : x.hint = hint
  performed : x.performed = false
  cleared : x.cleared = false
  pc : x.pc = s.cur.iss.pc
  ticket : x.ticket = none

/-- Every core but the running one is as it was. -/
def SameOthers (s t : State) : Prop := ∀ n, n ≠ s.ev.core → t.coreAt n = s.coreAt n

/-- A register waits for the result of an access. -/
def Expects (t : State) (f : RFile) (r : Nat) (tag : Nat) : Prop :=
  ∃ e ∈ t.cur.t.pend, e.is f r = true ∧ e.tag = tag ∧ e.visible = none ∧ e.mask = none

/-- The thread of the word stays on its core for an access (07 R176). -/
def Stays (s : State) (a : W64) : Prop := ∃ u, s.retire.move a = .stay u
/-- The word's checks pass and its thread stays on its core (07 R176, R186). -/
def Goes (s : State) (use : Use) (a : W64) (n : Nat) : Prop :=
  s.retire.accCheck s.retire.cur use a n = none ∧ Stays s a
/-- The core's policy or its predictor asks that the thread move to the home core of an access's line, and nothing keeps it (07 R176). -/
structure Drawn (s : State) (a : W64) (home : Nat) : Prop where
  away : s.otherHome s.ev.core a = some home
  want : s.cur.t.homepol = 2 ∨ (s.cur.t.homepol = 0 ∧ s.cur.predicts home = true)
  free : s.pinned s.ev.core = false
/-- What the thread has begun is complete, so that it can leave its core. -/
def MayLeave (s : State) : Prop := s.cur.uncleared = false ∧ s.cur.unacked = 0 ∧ s.cur.dividing = false
/-- A thread leaves its core for another one, where it goes on at a PC (07 R177): the core is idle, the word has done nothing, and one
message has the registers with all results. -/
def Departs (i : Instr) (s : State) (home : Nat) (pc : W64) : Prop :=
  ∃ t p th marks, exec i s = .next t ∧ t.cur.run = .idle ∧ t.cur.t.w = 0 ∧ t.cur.mem = s.cur.mem ∧ SameOthers s t ∧ SameMem s t []
    ∧ t.net = s.net ++ p :: marks ∧ (s.cur.marked = false → marks = []) ∧ p.dest = .core home ∧ p.ctx = s.cur.ctxid.toNat
    ∧ p.body = .migrate th none ∧ th.pc = pc ∧ th.nom = 0 ∧ th.s = s.cur.t.finish.s ∧ th.v = s.cur.t.finish.v
    ∧ th.p = s.cur.t.finish.p ∧ th.flags = s.cur.t.finish.flags ∧ SameThread s.cur.t th
/-- A word whose thread is to move for an access waits until it can leave, and then makes the thread go to the idle home core, where
the word is issued again. -/
def Moves (i : Instr) (s : State) (a : W64) : Prop :=
  ∀ home, Drawn s a home →
    (¬ MayLeave s → ∃ t, Waits i s t)
    ∧ (MayLeave s → s.idleIn home s.cur.ctxid = true → s.cur.fwd.length < 8 → Departs i s home s.cur.iss.pc)

/-- The core has room for one store more (07 R186, 12 R283). -/
def RoomForStore (s : State) : Prop := s.cur.unacked + s.cur.pushes.length < if s.isDet s.cur then 256 else 32

/-- An access whose checks find a cause traps with the address (07 R186). -/
def Checked (i : Instr) (s : State) (use : Use) (a : W64) (n : Nat) : Prop :=
  ∀ code, s.retire.accCheck s.retire.cur use a n = some code → Traps i s code a

/-- The active lanes of a gather or a scatter with their addresses (13 R321): the lane's signed index times the lane width. -/
def State.laneList (s : State) (t : BitVec 2) (idx b : BitVec 5) (p : BitVec 3) : List (Nat × W64) :=
  ((List.range (s.vn t)).filter (s.vp p)).map (fun k =>
    (k, BitVec.ofInt 64 ((s.rs b).toInt + sxBits (8 * s.vw t) (s.vl t idx k) * (s.vw t : Int))))

/-- One access for each of some lanes, in their order. -/
def LaneAccesses (s : State) (kind : AccKind) (w : Nat) (l : List (Nat × W64)) (xs : List Access) : Prop :=
  xs.length = l.length ∧ ∀ k (hk : k < l.length) (hx : k < xs.length),
    (xs[k]).kind = kind ∧ (xs[k]).form = .lane (l[k]).1 w ∧ Fresh s xs[k] (l[k]).2 (s.spLocs (l[k]).2 w) 0 .plain .dev .default
      ∧ (xs[k]).tag = s.cur.nextTag

/-! ## What a word writes at once -/

/-- Interlocked results that are there at once: the registers of a list hold their values from the word's slot on, and no other
register changes. A write to s0 or p0 is discarded. -/
def Writes (s t : State) (l : List (RFile × Nat × W64)) : Prop :=
  (∀ e ∈ l, e.2.1 ≠ 0 → ResultIn s t e.1 e.2.1 (e.2.2.setWidth 512) 0)
    ∧ OnlyRegs s t ((l.filter (fun e => decide (e.2.1 ≠ 0))).map (fun e => (e.1, e.2.1)))

/-- Flags, special registers, other cores and memory are as they were. -/
def Plain (s t : State) : Prop := SameFlags s t ∧ SameSpecials s.cur t.cur ∧ SameOthers s t ∧ SameMem s t []

/-- What p7 shows for done and for not done. -/
def p7Of (ok : Bool) : RFile × Nat × W64 := (.p, 7, if ok then BitVec.allOnes 64 else 0)

/-- The core has made every access that it has issued. -/
structure Idle (s : State) : Prop where
  settled : Settled s
  none : s.cur.mem = []

/-- Every sequencer but one is as it was. -/
def SeqrsBut (s t : State) (id : W32) : Prop :=
  ∀ k, k ≠ seqrKey id → FMap.getD t.seqrs k Seqr.reset = FMap.getD s.seqrs k Seqr.reset

/-- The accesses that a word adds for a join under `hd` of what is ordered under h[g], where the core has none (08 R210, R211): the
join `x`, with what it waits for; and before it, where h[g] lies on another device, the join there that stands for h[g]'s tickets. -/
def JoinsIn (s : State) (g : BitVec 4) (hd : Handle) (sc : Scope) (ticket : Option Nat) (mem : List Access) : Prop :=
  ∃ x, x.kind = .join ∧ x.handle = some hd ∧ x.scope = sc ∧ x.ticket = ticket ∧ x.performed = false
    ∧ match s.handle g with
      | none => mem = [x] ∧ x.prior = [] ∧ x.priorTickets = []
      | some hg =>
        if s.foreign hg.id then ∃ y, mem = [y, x] ∧ y.kind = .join ∧ y.handle = some hg ∧ y.ticket = none ∧ x.prior = [y.tag]
          ∧ x.priorTickets = []
        else mem = [x] ∧ x.prior = [] ∧ x.priorTickets = (s.seqr hg.id).opens.map (fun k => (seqrKey hg.id, k))

/-- No access ordered under a handle is still to be performed, but those of engine commands (08 R206, R214). -/
def QuietUnder (s : State) (hd : Handle) : Prop :=
  s.foreign hd.id = false ∧ ∀ o ∈ (s.seqr hd.id).opens, (s.seqr hd.id).next ≤ o ∨ s.engineTicket (seqrKey hd.id) o = true
/-- One is: a word that waits for the handle waits. -/
def BusyUnder (s : State) (hd : Handle) : Prop :=
  s.foreign hd.id = false ∧ ∃ o ∈ (s.seqr hd.id).opens, o < (s.seqr hd.id).next ∧ s.engineTicket (seqrKey hd.id) o = false
/-- What a waiting `hjoin` or `fence` has marked is performed, and so are those of the thread's own accesses that it is for. -/
def MarksDone (s : State) (ms : List (Nat × Nat)) (ts : List Nat) (own : Access → Prop) : Prop :=
  (∀ m ∈ ms, ∀ o ∈ (FMap.getD s.seqrs m.1 Seqr.reset).opens, m.2 ≤ o ∨ s.engineTicket m.1 o = true)
    ∧ (∀ x ∈ s.cur.mem, x.tag ∉ ts)
    ∧ ∀ x ∈ s.cur.mem, own x → x.performed = true
/-- No visitor copy is older than a store that `p` names: each is performed at system scope (08 R205). -/
def NoOlderCopy (t : State) (p : Writer → Prop) : Prop := ∀ v ∈ t.stale, ∀ w ∈ v.writers, ¬ p w

/-- The areas that a word uses through an agent of the device can be reached now (07 R181, 17 R381). -/
def Reached (s : State) (areas : List (Nat × Nat)) : Prop := areas.findSome? s.lineMiss = none ∧ s.areaOff areas = false
/-- What the word does where one of them cannot: the walk's fault is its trap; at an invalid entry it parks, or takes PAGE_FAULT
where it may not; and else it waits. -/
def HeldUpAt (i : Instr) (s u : State) (areas : List (Nat × Nat)) : Prop :=
  (∀ a code, areas.findSome? u.lineMiss = some (a, .error code) → Traps i s code (BitVec.ofNat 64 a))
  ∧ (∀ a p, areas.findSome? u.lineMiss = some (a, .ok p) → (s.cur.ctxid = 0 → Traps i s cPageFault (BitVec.ofNat 64 a))
    ∧ ((∃ t, Waits i s t ∧ t.cur.fpark.map (·.2.2) = some (BitVec.ofNat 64 a)) ∨ Traps i s cPageFault (BitVec.ofNat 64 a)))
  ∧ (areas.findSome? u.lineMiss = none → u.areaOff areas = true → ∃ t, Waits i s t)
/-- The same where the word finds them as they are before it. -/
def HeldUp (i : Instr) (s : State) (areas : List (Nat × Nat)) : Prop := HeldUpAt i s s areas
/-- The same for a word that takes no fault of its own there: no walk for the areas meets an invalid entry. -/
def Mapped (s : State) (areas : List (Nat × Nat)) : Prop :=
  (∀ e ∈ areas, ∀ a p, s.lineMiss e ≠ some (a, .ok p)) ∧ s.areaOff areas = false

/-- The weight that a word takes: half of w for 0, else the amount itself (09 R226). -/
def spTake (w : W32) (amt : Nat) : Nat := if amt = 0 then w.toNat / 2 else amt
/-- The amount can be taken: 1 unit at least goes and 1 at least stays. -/
def CanTake (s : State) (amt : Nat) : Prop := 1 ≤ spTake s.cur.t.w amt ∧ spTake s.cur.t.w amt < s.cur.t.w.toNat

/-- The identifier that a message carries for an h field: the handle's, or 0 for none (09 R217). -/
def State.handleId (s : State) (h : BitVec 4) : W32 := ((s.handle h).map (·.id)).getD 0

/-- The message that a core sends (09 Table 9-1). -/
structure Sent (s : State) (m : Msg) (kind : Nat) (amt : W64) (weight : Nat) (p : BitVec 5) (f : BitVec 1) (hnd : W32) : Prop where
  kind : m.kf.toNat % 8 = kind
  fut : m.kf.getLsbD 7 = decide (f = 1)
  tag : m.kf.toNat / 256 = amt.toNat / 2 ^ 56
  vint : m.vint = s.cur.t.vint
  weight : m.weight.toNat = weight % 2 ^ 32
  src : m.src = s.endpoint s.ev.core
  hnd : m.hnd = hnd
  payload : m.payload = (List.range 6).map (fun k => s.rs (p + BitVec.ofNat 5 k))
  ctx : m.ctx = s.cur.ctxid.toNat

/-- Flags, special registers and other cores are as they were; the caches may have moved lines. -/
def Steady (s t : State) : Prop := SameFlags s t ∧ SameSpecials s.cur t.cur ∧ SameOthers s t

/-- The run has ended or left its core, which is idle with no weight (06 R131). -/
structure BecomesIdle (i : Instr) (s t : State) : Prop where
  next : exec i s = .next t
  slot : t.cur.slot = .done
  run : t.cur.run = .idle
  weight : t.cur.t.w = 0
  counted : t.cur.instret = s.cur.instret + 1
  others : ∀ n, n ≠ s.ev.core → (t.coreAt n).t.s = (s.coreAt n).t.s ∧ (t.coreAt n).pl = (s.coreAt n).pl

/-- The participants of a barrier have all arrived with everything performed, but for the core itself (09 R255). -/
def OthersArrived (s : State) (ps : List Nat) (level : Nat) (rack : Bool) (mask : Nat) : Prop :=
  ∀ m ∈ ps, m ≠ s.ev.core → (s.coreAt m).barrier? level s.cur.ctxid = some (rack, mask)
    ∧ (s.coreAt m).replay = [] ∧ ∀ x ∈ (s.coreAt m).mem, x.performed = true ∨ x.isJoin = true

/-- The word, its registers and which barrier word it is. -/
def barSpec : Instr → Option (BitVec 5 × BitVec 5 × BitVec 2 × Bool)
  | .rackb d a v => some (d, a, v, true)
  | .bar d a v => some (d, a, v, false)
  | _ => none

/-- The continuation words with the registers that they save, PH, and where the record goes (12 R294). -/
def leaveSpec (s : State) : Instr → Option (Nat × Bool × Nat × ParkAt)
  | .sync m x => some (2 * m.toNat, decide (x = 1), s.cur.t.prio.toNat, .sync)
  | .suspend q m x => some (2 * m.toNat, decide (x = 1), q.toNat, .queue q.toNat)
  | .yield m x => some (2 * m.toNat, decide (x = 1), s.cur.t.prio.toNat, .queue s.cur.t.prio.toNat)
  | _ => none

/-- The mark of a register, cleared or set. -/
def unmarkIf (c : Prop) [Decidable c] (m : BitVec 16) (r : BitVec 5) : BitVec 16 := if c then m &&& ~~~(regMark r.toNat) else m

/-- Areas that a word uses can be reached, and frames that it uses are in range (07 R181, 12 R270). -/
def UsesOk (s : State) (areas : List (Nat × Nat)) (frames : List Nat) : Prop :=
  Reached s (areas ++ frames.map frameArea) ∧ ∀ x, s.ctxOf s.cur = some x → ∀ f ∈ frames, s.frameOk x f = true
/-- What the word does where they are not: it parks, waits or takes the walk's fault, or FUTURE with the first frame out of range. -/
def UsesNot (i : Instr) (s : State) (areas : List (Nat × Nat)) (frames : List Nat) : Prop :=
  HeldUp i s (areas ++ frames.map frameArea)
    ∧ (Reached s (areas ++ frames.map frameArea) → ∀ x f, s.ctxOf s.cur = some x →
        frames.find? (fun f => !s.frameOk x f) = some f → Traps i s cFuture (futureTval 3 (BitVec.ofNat 64 f)))
/-- The frame of the run, if it has one. -/
def State.ownFrame (s : State) : List Nat := if s.cur.t.frame = 0 then [] else [s.cur.t.frame.toNat]
/-- The frames that wait for a future. -/
def State.waiting (s : State) (fu : Nat) : List Nat := s.withCtx (fun x => s.waiters x fu)
/-- What enqueuing the waiters of a future uses: the ring entries and the overflow chains of their queues. -/
def State.wakeUse (s : State) (fu : Nat) : List (Nat × Nat) × List Nat :=
  (s.withCtx (fun x => (s.waiting fu).flatMap (fun g => s.queueEntry x (s.framePrio g))),
    s.withCtx (fun x => (s.waiting fu).flatMap (fun g => s.queueFrames x (s.framePrio g))))
/-- What a continuation write with a mask uses beside the run's own frame. -/
def State.restUse (s : State) (mask : Nat) (park : ParkAt) : List (Nat × Nat) × List Nat :=
  let lost := s.cur.t.finish.refAreas (s.cur.t.finish.lostRegs mask)
  match park with
  | .queue q => (lost ++ s.withCtx (fun x => s.queueEntry x q), s.withCtx (fun x => s.queueFrames x q))
  | .future fu => ((fu, 32) :: lost, s.waiting fu)
  | .sync => (lost, [])

/-- Only cores differ, and no core's racking area. -/
def OnlyCores (s t : State) : Prop := t = { s with cores := t.cores } ∧ ∀ n, (t.coreAt n).live = (s.coreAt n).live
/-- What becomes of memory, queues, contexts and messages, whatever the word does to its core. -/
def Effects (s t : State) (r : State → State → Prop) : Prop := ∃ u v, OnlyCores s u ∧ r u v ∧ OnlyCores v t

/-- The keys of some bytes of scratchpads. -/
def State.keysAt (s : State) (a n : Nat) : List Nat := (s.locsOf (BitVec.ofNat 64 a) n).map s.directKey
/-- Bytes that lie in the scratchpads of this device, none of them in a word marked uncorrectable. -/
structure Scratch (s : State) (a n : Nat) : Prop where
  some_ : 0 < n ∧ a + n ≤ 2 ^ 64
  there : ∀ k, k < n → s.absentUnit (BitVec.ofNat 64 (a + k)) = false ∧ ∃ fmt core off,
    s.window (BitVec.ofNat 64 (a + k)) = .spad fmt s.devid core off
  apart : (s.keysAt a n).Nodup
  sound : ∀ k ∈ s.keysAt a n, s.bad.contains (k / 4 * 4) = false

/-- Bytes are written at an address. -/
def State.putAt (s : State) (a : Nat) (bs : List Byte) : State := (s.vPut a bs).getD s
/-- Numbers are written, in order: address, size and value. -/
def State.putAll (s : State) (l : List (Nat × Nat × Nat)) : State := l.foldl (fun s e => s.putAt e.1 (toBytes e.2.1 e.2.2)) s

/-- The record of a frame is due in run queue `q` (12 R278, R279): STATE is 1; an entry with the frame, its WEIGHT and its VINT goes
into the ring, or the frame to the tail of the queue's overflow chain. -/
structure Enqueued (ctx q f : Nat) (s t : State) : Prop where
  ring : ∀ x qu u, s.ctx? ctx = some x → x.chains.getD q 0 = 0 → let s1 := s.putAll [(f + 0xB8, 1, 1)]
    s1.queueOf (x.rcb.cq.getD q 0) = some qu → qu.tail - qu.head < 2 ^ qu.k →
    s1.vPut (qu.base.toNat + 64 * (qu.tail % 2 ^ qu.k))
      (toBytes 8 f ++ toBytes 4 (s1.vNum (f + 0xC) 4) ++ toBytes 2 (s1.vNum (f + 0x14) 2) ++ List.replicate 50 0) = some u →
    t = { u with queues := FMap.put u.queues (queueKey (x.rcb.cq.getD q 0)) { qu with tail := qu.tail + 1 } }
  chain : ∀ x, s.ctx? ctx = some x → let s1 := s.putAll [(f + 0xB8, 1, 1)]; let u := s1.putAll [(f + 0xA0, 8, 0)]
    (s1.queueOf (x.rcb.cq.getD q 0) = none ∨ x.chains.getD q 0 ≠ 0
      ∨ ∃ qu, s1.queueOf (x.rcb.cq.getD q 0) = some qu ∧ 2 ^ qu.k ≤ qu.tail - qu.head) →
    (x.chains.getD q 0 = 0 → t = u.setCtx ctx { x with chains := setAt x.chains q (BitVec.ofNat 64 f) })
    ∧ (x.chains.getD q 0 ≠ 0 →
        t = u.putAll [((u.chainOf x (x.chains.getD q 0).toNat (x.rcb.fpooln.toNat + 1)).getLastD (x.chains.getD q 0).toNat + 0xA0, 8, f)])

/-- Waiters are enqueued in their order, each at its priority, with LINK cleared (12 R292). -/
def Woken (ctx : Nat) : List Nat → State → State → Prop
  | [], s, t => t = s
  | f :: l, s, t => ∃ u, Enqueued ctx (s.vNum f 8 / 2 ^ 56 % 16) f (s.putAll [(f + 0xA0, 8, 0)]) u ∧ Woken ctx l u t

/-- A PENDING future is resolved (12 R264, R292): STATE, VALUE, no waiters; a cell that no reference counts is free; and its waiters
are enqueued, oldest first. -/
def Resolved (ctx ref st value : Nat) (s t : State) : Prop :=
  let u := s.putAll [(ref, 1, st), (ref + 8, 8, value), (ref + 0x10, 8, 0)]
  Woken ctx (((s.ctx? ctx).map (fun x => s.waiters x ref)).getD [])
    (if u.vNum (ref + 4) 4 = 0 ∧ u.vNum ref 1 ≠ 1 then u.putAll [(ref, 1, 0)] else u) t

/-- One reference to a future is given up (12 R264, R267): COUNT is one less; the last reference to a PENDING one marks its producer, a
tile task at once and a handler by a packet to the home core; any other cell that none counts is free. -/
structure Dropped (ctx ref : Nat) (s t : State) : Prop where
  kept : 1 < s.vNum (ref + 4) 4 → t = s.putAll [(ref + 4, 4, s.vNum (ref + 4) 4 - 1)]
  last : s.vNum (ref + 4) 4 ≤ 1 → let u := s.putAll [(ref + 4, 4, 0)]
    (u.vNum ref 1 = 1 → u.vNum (ref + 1) 1 = 1 → t = { u with tiles := u.tiles.map (fun (e : Nat × List TileTask) =>
        (e.1, e.2.map (fun k => if k.cell.toNat = ref then { k with marked := true } else k))) })
    ∧ (u.vNum ref 1 = 1 → u.vNum (ref + 1) 1 ≠ 1 → ∃ p, t = { u with net := u.net ++ [p] } ∧ p.dest = .home ctx ∧ p.ctx = ctx
        ∧ p.body = .mark (BitVec.ofNat 64 (u.vNum (ref + 0x18) 8)) (BitVec.ofNat 64 ref))
    ∧ (u.vNum ref 1 ≠ 1 → t = if u.vNum (ref + 4) 4 = 0 then u.putAll [(ref, 1, 0)] else u)
/-- References are given up in order. -/
def DroppedAll (ctx : Nat) : List Nat → State → State → Prop
  | [], s, t => t = s
  | f :: l, s, t => ∃ u, Dropped ctx (f % 2 ^ 56) s u ∧ DroppedAll ctx l u t

/-- The record of a continuation in frame `f` (12 Table 12-2, R271): CODE with the priority, the frame's index, WEIGHT, VINT, FMASK of
the marked registers that it keeps, MASK, and one slot for each register of the mask; then the references and the handles that it does
not keep are given up. -/
def RecordPut (f : Nat) (pc : W64) (m prio : Nat) (th : Thread) (s t : State) : Prop :=
  let ctx := s.cur.ctxid.toNat
  let keeps := (markedRegs th.fmask).foldl (fun (a : BitVec 16) r => if m.testBit r then a ||| regMark r else a) 0
  let u := (s.putAll [(f, 8, pc.toNat % 2 ^ 56 + prio * 2 ^ 56),
      (f + 8, 4, match s.ctx? ctx with | some x => x.frameIndex f | none => 0), (f + 0xC, 4, th.w.toNat), (f + 0x14, 2, th.vint.toNat),
      (f + 0x16, 2, keeps.toNat), (f + 0x18, 8, m)]).putAt (f + 0x20) ((th.slots m).map (toBytes 8)).flatten
  ∃ v, DroppedAll ctx ((th.lostRegs m).map (fun r => (th.file .s r).toNat)) u v
    ∧ t = (List.range 15).foldl (fun (s : State) i => match th.h.toList.getD (i + 1) none with
        | some h => if m.testBit (39 + i) then s else s.releaseHandle h.id
        | none => s) v

/-- Where a record goes (12 R271, R291, R294): its run queue; no queue, as one that waits for children; or the tail of a future's
waiters. -/
def ParkedAt (ctx f : Nat) (park : ParkAt) (s t : State) : Prop :=
  match park with
  | .queue q => Enqueued ctx q f s t
  | .sync => t = s.putAll [(f + 0xB8, 1, 3)]
  | .future fu => let u := s.putAll [(f + 0xB8, 1, 2), (f + 0xA0, 8, 0)]
    match (((u.ctx? ctx).map (fun x => u.waiters x fu)).getD []).getLast? with
    | none => t = u.putAll [(fu + 0x10, 8, f)]
    | some g => t = u.putAll [(g + 0xA0, 8, f)]

/-- The weight of the run reaches its home counter; else only cores differ. -/
def HomeWith (s u t : State) : Prop :=
  let ctx := s.cur.ctxid.toNat
  t = { u with cores := t.cores, ctxs := t.ctxs } ∧ (∀ n, (t.coreAt n).live = (u.coreAt n).live)
    ∧ (∀ n, n ≠ ctx → t.ctx? n = u.ctx? n)
    ∧ ∀ y, u.ctx? ctx = some y → ∃ z, t.ctx? ctx = some z ∧ z = { y with H := z.H, events := z.events, voidcnt := z.voidcnt }
        ∧ (y.vint = s.cur.t.vint → z.H = y.H + s.cur.t.w.toNat)

/-- The run leaves a continuation record with a mask in its frame (12 R271). -/
def Leaves (s t : State) (pc : W64) (m prio : Nat) (park : ParkAt) : Prop :=
  let f := s.cur.t.frame.toNat
  ∃ a u v w, OnlyCores s { a with flagAcc := s.flagAcc, flagNew := s.flagNew } ∧ a.cur.ctxid = s.cur.ctxid
    ∧ RecordPut f pc m prio s.cur.t.finish a u ∧ HomeWith s u v ∧ ParkedAt s.cur.ctxid.toNat f park v w ∧ OnlyCores w t

/-! ## Streams, blocks and engines (13, 15) -/

/-- The words whose vector source or destination may be a stream in the statements on streams. -/
def streamWord (s : State) (i : Instr) : Prop :=
  (∃ x, vecSpec s i = some x) ∨ (∃ x, vecCmp s i = some x) ∨ (∃ x, vecRed s i = some x) ∨ (∃ x, vecWhole s i = some x)
    ∨ (∃ x, vecMove s i = some x) ∨ (∃ d a h e p t, i = .vcvt d a h e p t) ∨ (∃ d a r t, i = .vcvtb d a r t)
    ∨ (∃ d b h o c n, i = .vst d b h o c n) ∨ (∃ d a b p t, i = .vgath d a b p t) ∨ (∃ d a b p t, i = .vscat d a b p t)
    ∨ ∃ d o b p t, i = .vamo d o b p t

/-- The descriptor words of the copy engine: address, tag register, handle and combination (15 R359). -/
def copySpec : Instr → Option (BitVec 5 × BitVec 5 × BitVec 4 × Option (BitVec 1))
  | .copys a b h => some (a, b, h, none)
  | .copyx a b o h => some (a, b, h, some o)
  | _ => none

/-- A copy command that has only been queued (15 R344, R346, R359): `level` and context of its word, one borrowed unit. -/
structure Queued (s : State) (k : CopyCmd) (comb : Option (BitVec 1)) (tag : BitVec 8) (h : BitVec 4) : Prop where
  comb : k.comb = comb
  tag : k.tag = tag
  level : k.level = s.cur.pl
  ctx : k.ctx = s.cur.ctxid.toNat
  vint : k.vint = s.cur.t.vint
  weight : k.weight = if s.cur.ctxid = 0 then 0 else 1
  handle : k.handle = s.handle h
  gens : k.gens = s.cur.t.gens
  open_ : k.validated = false ∧ k.status = none ∧ k.count = 0 ∧ k.held = [] ∧ k.buf = [] ∧ k.put = 0 ∧ k.waiting = false
    ∧ k.parked = none

/-- The unit that an engine command borrows. -/
def Borrows (s t : State) : Prop := t.cur.t.w.toNat + (if s.cur.ctxid = 0 then 0 else 1) = s.cur.t.w.toNat

/-! ## Words that answer with a status (06 Table 6-15, 17 R383) -/

/-- The word writes its status, and nothing else changes. -/
def Answers (i : Instr) (s : State) (d : BitVec 5) (st : Nat) : Prop :=
  ∃ t, Retires i s t ∧ Writes s t [(.s, d.toNat, BitVec.ofNat 64 st)] ∧ Plain s t

/-- The word has an effect on the device, and writes its status; of its own core nothing else changes. -/
def Acts (i : Instr) (s t : State) (d : BitVec 5) (x : W64) : Prop :=
  Retires i s t ∧ Writes s t [(.s, d.toNat, x)] ∧ SameFlags s t ∧ SameSpecials s.cur t.cur

/-- A PLB entry that `plbinv` clears (06 R156). -/
def plbGone (mode : Nat) (x : W64) (i : Nat) (e : PlbEntry) : Bool :=
  decide (e.pages ≠ 0) && (match mode with
    | 0 => decide (i = x.toNat % 64)
    | 1 => decide (e.domain.toNat = x.toNat % 4096)
    | 2 => decide (e.base.toNat / 8192 * 8192 ≤ x.toNat) && decide (x.toNat < e.base.toNat / 8192 * 8192 + e.pages.toNat * 8192)
    | _ => true)

/-- The core and kind that an `errinj` arms, and the armed core (06 R163). -/
def injArmed (k : Nat) (c : Core) : Bool :=
  match k with
  | 0 => c.injVanish
  | 1 => c.injHold.isSome
  | _ => c.injParity

/-- The state in which a word that other agents may have to be waited for has its effect outside a deterministic region
(12 R283). -/
def State.gated (s : State) : State := s.retire.modCur (fun c => { c with qgo := false })

/-! ## Contexts (12, 17) -/

/-- The context that a word names is live and within the issuer's authority (06 R158). -/
def Governs (s : State) (id : Nat) (x : Ctx) : Prop := s.ctx? id = some x ∧ s.cur.authority x = true

/-- The statuses of a context that is not live, and of one outside the issuer's authority (06 Table 6-15). -/
def StatusChecked (i : Instr) (s : State) (d : BitVec 5) (id : Nat) : Prop :=
  (s.ctx? id = none → Answers i s d 2) ∧ ∀ x, s.ctx? id = some x → s.cur.authority x = false → Answers i s d 3

/-- Every context but one is as it was. -/
def CtxsBut (s t : State) (id : Nat) : Prop := ∀ n, n ≠ id → t.ctx? n = s.ctx? n

/-- The issuer of `errinj` may act on the core or the address whose owner is given (06 R163). -/
def MayInject (s : State) (owner : Option Ctx) : Prop := s.cur.pl = 2 ∨ ∃ x, owner = some x ∧ s.cur.authority x = true

/-! ## Steps that no word encodes -/

/-- The step concerns the oldest packet in flight, and steps 1 and 2 of a quantum's commit do not keep it back (12 R284). -/
structure First (s : State) (p : Packet) (rest : List Packet) : Prop where
  net : s.net = p :: rest
  pick : s.ev.pick = 0
  late : s.early p.ctx = false

/-- A core has entered a trap of supervisor level at TVEC, or at a region's quiescence entry (06 R140, R142). -/
structure Trapped (s t : State) (code : BitVec 8) (tval resume pc : W64) : Prop where
  pl : t.cur.pl = 1
  run : t.cur.run = .running
  pc : t.cur.t.pc = pc
  code : t.cur.tcause.extractLsb' 0 8 = code
  tval : t.cur.tval = tval
  tpc : t.cur.tpc.toNat = resume.toNat % 2 ^ 56

/-- The core runs at user level outside a cordon. -/
structure Alone (s : State) : Prop where
  pl : s.cur.pl = 0
  leader : s.cur.leader = none
  members : s.cur.members = []

/-- Every pending result of a tag is there with a value (03 R57). -/
def Arrives (s t : State) (tag : Nat) (v : W512) : Prop :=
  ∀ e ∈ s.cur.t.pend, e.tag = tag → e.visible = none → { e with val := v, visible := some e.issued } ∈ t.cur.t.pend

/-- An access that the step concerns, at its place, with the accesses before it. -/
structure Concerns (s : State) (k : Nat) (x : Access) : Prop where
  pick : s.ev.pick = k
  at_ : s.cur.mem[k]? = some x

/-- An access is performed with these bytes, where nothing makes its thread move (07 R176, R183). -/
structure Performs (s : State) (k : Nat) (x : Access) (vals : List Byte) (u : State) : Prop where
  stays : s.walkTarget s.ev.core x.addr (match x.form with | .lane _ _ => none | _ => some x.tag) = none
  done : s.perform s.ev.core x (s.cur.mem.take k) = .done vals u

/-- The tags of the core's accesses. -/
def State.memTags (s : State) : List Nat := s.cur.mem.map (·.tag)

/-! ## Engines, links and the device -/

/-- A task without its mark. -/
def TileTask.unmarked (k : TileTask) : TileTask := { k with marked := false }
/-- What the end of a task uses: its future with the waiters, and its dependences (07 R181). -/
def State.tileUse (s : State) (k : TileTask) : List (Nat × Nat) :=
  ((s.ctx? k.ctx).map (fun x => s.wakeAreas x k.cell.toNat)).getD [] ++ ([k.dep0, k.dep1].filter (· ≠ 0)).map (fun f => (f, 32))
/-- A tile task is gone with this completion (15 R360); a future that loses its last reference may mark another task (12 R267). -/
def TileEnds (s t : State) (i : Nat) (k : TileTask) (st code10 fcode : Nat) : Prop :=
  (t.tasks (sgOf s.ev.core)).map TileTask.unmarked = (dropAt (s.tasks (sgOf s.ev.core)) i).map TileTask.unmarked
    ∧ ∃ p, t.net.getLast? = some p ∧ p.ctx = k.ctx
      ∧ (k.notify = false → p.dest = .home k.ctx ∧ p.body = .wret k.vint 1)
      ∧ (k.notify = true → p.dest = .core k.poster ∧ ∃ m : Msg, p.body = .msg m none ∧ m.kind = 5 ∧ m.weight = 1
        ∧ m.payload.getD 0 0 = BitVec.ofNat 64 (st + 256 * fcode) ∧ m.payload.getD 1 0 = k.cell
        ∧ m.payload.getD 2 0 = BitVec.ofNat 64 code10)

/-- The store that a register step performs: its offset and value; the access leaves the core in the state after. -/
def Performed (s t : State) : Prop := t.memTags = dropAt s.memTags s.ev.pick

/-! ## Issuing, reset and the whole machine -/

/-- The words that only a supervisor or only the machine level may run (03 Table 3-9), by level. -/
def levelSpec : Instr → BitVec 2 → Prop
  | .tret, l | .caskopen _, l | .caskseal _, l | .idle, l | .plbw _ _ _, l | .plbinv _ _ _, l | .preempt _ _ _, l
  | .ctxsave _ _, l | .ctxload _ _, l | .wvint _, l | .errinj _ _ _, l | .kzero _ _, l | .scrub _ _ _ _, l
  | .assign _ _ _, l | .release _, l => l = 1
  | .kload _ _ _, l | .linkkey _ _ _, l => l = 2
  | _, _ => False

/-- Word 0 of a pair takes its effect in a state that has word 1's: at once, or, where it leaves the core idle while word 1 divides, in
the cycle in which the result arrives (04 R84). -/
def Finishes (n : Nat) (i0 i1 : Instr) (iss0 : Issue) (r t : State) : Prop :=
  ∃ v, exec i0 (r.withIssue n iss0) = .next v ∧ match r.partnerDue (v.endParity n [i0, i1]) n iss0.nom with
    | none => t = v.endParity n [i0, i1]
    | some due => ∃ w, exec i0 ((r.advanceTo due).withIssue n iss0) = .next w ∧ t = w.endParity n [i0, i1]

/-- What every step keeps: memory has its canonical form, and no core runs at, or will return to, a level that is none of user,
supervisor and machine (06 R131). -/
def State.Inv (s : State) : Prop :=
  Memory.wf s.mem = true ∧ ∀ e ∈ s.cores, e.2.pl ≠ 3 ∧ e.2.tcause.extractLsb' 20 2 ≠ 3

end Sys2Proof.Machine

open Sys2Proof Sys2Proof.Machine

/-- Every integer word that does not divide: its value is on its way to its register and comes when the rule says; no other
register, no flag and no byte of memory changes. A result for s0 or p0 changes no register. -/
def Obligations.IntegerWordsWriteTheirResult : Prop :=
  ∀ (i : Instr) (s : State) (f : RFile) (r : Nat) (x : W64) (lat : Nat),
    intSpec s i = some (f, r, x, lat) → Ready i s →
      ∃ t, Retires i s t ∧ OnlyThread s t ∧ SameFlags s t ∧ SameMem s t []
        ∧ (r ≠ 0 → ResultIn s t f r (x.setWidth 512) lat ∧ OnlyRegs s t [(f, r)])
        ∧ (r = 0 → OnlyRegs s t [])

/-- A divide word goes to the divider where that is free and the divisor does not trap: the result is due after the cycles of
04 R84, it is what reaches the register, and nothing but that register is on its way to change. A zero divisor with
CTL.DZT = 1 takes DIV_ZERO, and nothing is written; a busy divider makes the word wait. That `divu` and `remu` of 2^63 by 2^64 − 1
take the 20 cycles of their magnitude, and not 4, is the model's reading of R84 and Table 4-8 (log entry 52). -/
def Obligations.DivideWordsUseTheDivider : Prop :=
  ∀ (i : Instr) (s : State) (d : BitVec 5) (x y z : W64) (n : Nat), divSpec s i = some (d, x, y, z, n) → Ready i s →
    (y = 0 → s.cur.dzt = true → Traps i s cDivZero x)
    ∧ ((y = 0 → s.cur.dzt = false) →
      (s.cur.t.div ≠ none → ∃ t, Waits i s t ∧ OnlyCur s t)
      ∧ (s.cur.t.div = none → ∃ t, Retires i s t ∧ OnlyCur s t ∧ SameSpecials s.cur t.cur ∧ SameThread s.cur.t t.cur.t ∧ SameFlags s t
        ∧ OnlyRegs s t [(.s, d.toNat)]
        ∧ (∃ q, t.cur.t.div = some q ∧ q.val = z ∧ q.flags = 0 ∧ q.due = s.cycle + n ∧ q.issued = s.cur.iss.nom)
        ∧ (d ≠ 0 → t.cur.t.finish.file .s d.toNat = z.setWidth 512)))

/-- Every scalar float word but `fcvt.ff`: its rounded result and its flags come when the rules say, for `fdiv` and `fsqrt` from the
divider, where that is free, together after the cycles of the table; nothing else changes. -/
def Obligations.ScalarFloatWordsRoundOnceAndSetTheirFlags : Prop :=
  ∀ (i : Instr) (s : State) (d : BitVec 5) (x : Nat) (fl : BitVec 5) (n : Nat), Ready i s →
    (floatSpec s i = some (d, x, fl, n) →
      ∃ t, Retires i s t ∧ OnlyThread s t ∧ SameMem s t [] ∧ FlagsIn s t fl n
        ∧ (d ≠ 0 → ResultIn s t .s d.toNat (BitVec.ofNat 512 x) n ∧ OnlyRegs s t [(.s, d.toNat)])
        ∧ (d = 0 → OnlyRegs s t []))
    ∧ (floatDivSpec s i = some (d, x, fl, n) → s.cur.t.div = none →
      ∃ t, Retires i s t ∧ OnlyCur s t ∧ SameSpecials s.cur t.cur ∧ SameThread s.cur.t t.cur.t ∧ SameFlags s t
        ∧ OnlyRegs s t [(.s, d.toNat)]
        ∧ (∃ q, t.cur.t.div = some q ∧ q.val = BitVec.ofNat 64 x ∧ q.flags = fl ∧ q.due = s.cycle + n)
        ∧ (d ≠ 0 → t.cur.t.finish.file .s d.toNat = (BitVec.ofNat 64 x).setWidth 512)
        ∧ t.cur.t.finish.flags = s.cur.t.endFlags.flags ||| fl)

/-- `fcvt.ff` (05 R127, R128): it rounds its source from one format into another; a stochastic rounding, which only a narrower
significand takes, draws one word where it rounds and steps RMODE.SRCTR; a draw that would fault makes the word trap. -/
def Obligations.FloatConversionRoundsAndDraws : Prop :=
  ∀ (s : State) (d a : BitVec 5) (v : BitVec 1) (e p : Prec) (r : BitVec 3),
    let m := if r = 0 then s.cur.t.rmode.toNat % 8 else r.toNat
    let rm := if m = 6 ∧ sigWidth e ≤ sigWidth p then 1 else m
    let y := roundTo (s.flt e a) (fmtOf p) rm (decide (v = 1)) (s.cur.srWord 0)
    let n := if y.drew = true then 1 else 0
    Ready (.fcvtFf d a v e p r) s →
      (∀ code tval, s.srFault n = some (code, tval) → Traps (.fcvtFf d a v e p r) s code tval)
      ∧ (s.srFault n = none →
        ∃ t, Retires (.fcvtFf d a v e p r) s t ∧ OnlyThread (s.drewWords n) t ∧ SameMem s t [] ∧ FlagsIn s t y.flags 3
          ∧ (d ≠ 0 → ResultIn s t .s d.toNat (BitVec.ofNat 512 y.bits) 3)
          ∧ OnlyRegs s t (if d = 0 then [] else [(.s, d.toNat)]))

/-- Every predicated word that writes a vector register: when its result comes, an active lane holds the value of the rule, and
an inactive one 0 where ZERO is 1, else what it would have held; the flags of the active lanes are set; nothing else
changes. A source that is bound to a stream is the strip that the word pops, and the stream goes on by one (13 R325), here as in every
statement on vector words with `showing` and `popping`. -/
def Obligations.VectorLaneWordsWriteTheirLanes : Prop :=
  ∀ (i : Instr) (s : State) (d : BitVec 5) (p : BitVec 3) (t : BitVec 2) (lat : Nat) (f : Nat → LaneRes),
    vecSpec (s.showing i) i = some (d, p, t, lat, f) → Ready i s → Sourced i s →
      ∃ u, Retires i s u ∧ OnlyThread (s.popping i) u ∧ SameMem s u [] ∧ OnlyRegs s u [(.v, d.toNat)]
        ∧ (∀ k, k < s.vn t → laneAt (s.vw t) (u.cur.t.read .v d.toNat (s.cur.iss.nom + lat)) k
            = if s.vp p k then (f k).1 % 2 ^ (8 * s.vw t)
              else if slotZero s.cur t then 0
              else laneAt (s.vw t) ((s.cur.t.settle s.cur.iss.nom).read .v d.toNat (s.cur.iss.nom + lat)) k)
        ∧ FlagsIn s u ((List.range (s.vn t)).foldl (fun x k => if s.vp p k then x ||| (f k).2 else x) 0) lat

/-- A vector compare writes bit k of its predicate with the relation of lane k where that is active, and follows ZERO where it
is not; the bits above the lanes are 0. -/
def Obligations.VectorComparesWritePredicateBits : Prop :=
  ∀ (i : Instr) (s : State) (q p : BitVec 3) (t : BitVec 2) (f : Nat → Bool × BitVec 5),
    vecCmp (s.showing i) i = some (q, p, t, f) → Ready i s → Sourced i s →
      ∃ u, Retires i s u ∧ OnlyThread (s.popping i) u ∧ SameMem s u [] ∧ OnlyRegs s u (if q = 0 then [] else [(.p, q.toNat)])
        ∧ (q ≠ 0 → ∀ k, k < 64 → (u.cur.t.read .p q.toNat (s.cur.iss.nom + 2)).getLsbD k
            = if s.vn t ≤ k then false
              else if s.vp p k then (f k).1
              else if slotZero s.cur t then false
              else ((s.cur.t.settle s.cur.iss.nom).read .p q.toNat (s.cur.iss.nom + 2)).getLsbD k)
        ∧ FlagsIn s u ((List.range (s.vn t)).foldl (fun x k => if s.vp p k then x ||| (f k).2 else x) 0) 2

/-- A reduction runs the pairwise tree of the rule over the active lanes, with the identity in the place of the others. -/
def Obligations.ReductionsRunThePairwiseTree : Prop :=
  ∀ (i : Instr) (s : State) (d a : BitVec 5) (p : BitVec 3) (t : BitVec 2) (e : Nat) (sg : Bool) (f : Nat → Nat → LaneRes),
    vecRed (s.showing i) i = some (d, a, p, t, e, sg, f) → Ready i s → Sourced i s →
      let y := spTree f 6 ((List.range (s.vn t)).map (fun k => if s.vp p k then (s.showing i).vl t a k else e))
      let x : W64 := if sg then BitVec.ofInt 64 (sxBits (8 * s.vw t) y.1) else BitVec.ofNat 64 y.1
      ∃ u, Retires i s u ∧ OnlyThread (s.popping i) u ∧ SameMem s u [] ∧ FlagsIn s u y.2 6
        ∧ (d ≠ 0 → ResultIn s u .s d.toNat (x.setWidth 512) 6 ∧ OnlyRegs s u [(.s, d.toNat)])
        ∧ (d = 0 → OnlyRegs s u [])

/-- `vsel`, `vins` and the move of a predicate into lanes write every lane of their register; the words that move lanes and
predicates to scalar and predicate registers write the value of the rule; both 2 cycles later. -/
def Obligations.LaneAndPredicateMovesWriteTheirResult : Prop :=
  ∀ (i : Instr) (s : State), Ready i s → Sourced i s →
    (∀ (d : BitVec 5) (t : BitVec 2) (f : Nat → Nat), vecWhole (s.showing i) i = some (d, t, f) →
      ∃ u, Retires i s u ∧ OnlyThread (s.popping i) u ∧ SameFlags s u ∧ SameMem s u [] ∧ OnlyRegs s u [(.v, d.toNat)]
        ∧ ∀ k, k < s.vn t → laneAt (s.vw t) (u.cur.t.read .v d.toNat (s.cur.iss.nom + 2)) k = f k % 2 ^ (8 * s.vw t))
    ∧ ∀ (g : RFile) (r : Nat) (x : W64), vecMove (s.showing i) i = some (g, r, x) →
      ∃ u, Retires i s u ∧ OnlyThread (s.popping i) u ∧ SameFlags s u ∧ SameMem s u []
        ∧ (r ≠ 0 → ResultIn s u g r (x.setWidth 512) 2 ∧ OnlyRegs s u [(g, r)]) ∧ (r = 0 → OnlyRegs s u [])

/-- `vcvt` and `vcvtb`: the word draws one stochastic word for each value that it rounds with one, in element order, and steps
RMODE.SRCTR by their number; a draw that would fault makes the word trap. `vcvt` writes the converted active lanes of the rule,
and 0 above them where it narrows into the low half, and keeps the others; `vcvtb` with DIR 0 writes the codes and then the scale
of each group, and 0 behind them; with DIR 1 it writes the value of each code times its group's scale. Nothing else changes. That
lanes at and above 2m keep their values is the model's choice (log entry 24). -/
def Obligations.VectorConversionsWriteConvertedLanes : Prop :=
  ∀ (s : State) (d a : BitVec 5),
    (∀ (h : BitVec 1) (e : BitVec 2) (p : BitVec 3) (t : BitVec 2),
      let i := Instr.vcvt d a h e p t
      let m := 64 / max (s.vw t) (s.vw e)
      let high : Bool := decide (h = 1)
      let narrow : Bool := decide (s.vw e < s.vw t)
      let draws := (s.showing i).cvtDraws a h e p t
      Ready i s → Sourced i s →
        (∀ code tval, s.srFault (draws m) = some (code, tval) → Traps i s code tval)
        ∧ (s.srFault (draws m) = none →
          ∃ u, Retires i s u ∧ OnlyThread ((s.popping i).drewWords (draws m)) u ∧ SameMem s u [] ∧ OnlyRegs s u [(.v, d.toNat)]
            ∧ FlagsIn s u ((List.range m).foldl (fun x j => if s.vp p j then x ||| ((s.showing i).cvtLane a h e t j (draws j)).flags else x) 0) 3
            ∧ ∀ k, k < s.vn e →
              let old := laneAt (s.vw e) ((s.cur.t.settle s.cur.iss.nom).read .v d.toNat (s.cur.iss.nom + 3)) k
              -- the lane's number among the converted ones, if it is one of them
              let j : Option Nat := if narrow && high then (if m ≤ k ∧ k < 2 * m then some (k - m) else none)
                else if k < m then some k else none
              laneAt (s.vw e) (u.cur.t.read .v d.toNat (s.cur.iss.nom + 3)) k
                = match j with
                  | some j => if s.vp p j then ((s.showing i).cvtLane a h e t j (draws j)).bits % 2 ^ (8 * s.vw e)
                    else if slotZero s.cur t then 0 else old
                  | none => if narrow && !high && decide (k < 2 * m) then 0 else old))
    ∧ (∀ t : BitVec 2,
      let i := Instr.vcvtb d a 0 t
      let groups := s.vn t / 16
      let draws := (s.showing i).encDraws a t
      Ready i s → Sourced i s →
        (∀ code tval, s.srFault (draws groups) = some (code, tval) → Traps i s code tval)
        ∧ (s.srFault (draws groups) = none →
          ∃ u, Retires i s u ∧ OnlyThread ((s.popping i).drewWords (draws groups)) u ∧ SameMem s u [] ∧ OnlyRegs s u [(.v, d.toNat)]
            ∧ FlagsIn s u ((List.range groups).foldl (fun x g => x ||| ((s.showing i).encGroup a t g (draws g)).2.2.1) 0) 3
            ∧ ∀ k, k < 64 → laneAt 1 (u.cur.t.read .v d.toNat (s.cur.iss.nom + 3)) k
                = if k < 8 * groups then
                    let codes := ((s.showing i).encGroup a t (k / 8) (draws (k / 8))).2.1
                    codes.getD (2 * (k % 8)) 0 % 16 + 16 * (codes.getD (2 * (k % 8) + 1) 0 % 16)
                  else if k < 9 * groups then ((s.showing i).encGroup a t (k - 8 * groups) (draws (k - 8 * groups))).1 % 256
                  else 0))
    ∧ ∀ t : BitVec 2,
      let i := Instr.vcvtb d a 1 t
      let groups := s.vn t / 16
      let byte (k : Nat) := laneAt 1 ((s.showing i).cur.rv a) k
      Ready i s → Sourced i s →
        ∃ u, Retires i s u ∧ OnlyThread (s.popping i) u ∧ FlagsIn s u 0 3 ∧ SameMem s u [] ∧ OnlyRegs s u [(.v, d.toNat)]
          ∧ ∀ k, k < s.vn t → laneAt (s.vw t) (u.cur.t.read .v d.toNat (s.cur.iss.nom + 3)) k
              = (roundToType (e2m1Scaled (byte (k / 2) / 16 ^ (k % 2) % 16) (byte (8 * groups + k / 16))) (s.vty t) 1 true 0).bits
                  % 2 ^ (8 * s.vw t)

/-- A branch outside a cordon: where its condition holds, and no reclamation is due at a backward one, the next slot is at the
bundle's address plus 8 × its displacement and issues 2 cycles later; where it does not, fetch goes on. No register and no
byte of memory changes. -/
def Obligations.BranchesGoToTheirTargetWhenTheirConditionHolds : Prop :=
  ∀ (i : Instr) (s : State) (disp : BitVec 10) (taken : Bool),
    branchSpec s i = some (disp, taken) → Ready i s → s.cur.leader = none →
      (taken = true → disp.toInt ≤ 0 → s.cur.marked = false) →
      ∃ t, exec i s = .next t ∧ t.cur.slot = .done ∧ t.cur.instret = s.cur.instret + 1
        ∧ t.cur.t.nom = s.cur.iss.nom + 1 + s.cur.iss.stall
        ∧ t.cur.t.pc = (if taken then BitVec.ofInt 64 (s.bundleOf.toNat + 8 * disp.toInt) else s.cur.iss.next)
        ∧ t.cur.ready = (if taken then s.cycle + 2 + s.cur.iss.stall else s.cur.ready)
        ∧ OnlyCur s t ∧ SameSpecials s.cur t.cur ∧ SameThread s.cur.t t.cur.t ∧ SameFlags s t ∧ OnlyRegs s t []

/-- The jumps: `jmp` and `jal` go to the bundle's address plus 8 × disp20, `jr` to s[a] plus 8 × imm10; `jal` writes s1 and `jr`
s[d] with the address of the next bundle. -/
def Obligations.JumpsGoToTheirTargetAndLink : Prop :=
  ∀ (s : State),
    (∀ i : BitVec 20, Ready (.jmp i) s → ∃ t, exec (.jmp i) s = .next t ∧ t.cur.slot = .done
      ∧ t.cur.t.pc = BitVec.ofInt 64 (s.bundleOf.toNat + 8 * i.toInt) ∧ t.cur.ready = s.cycle + 2 + s.cur.iss.stall
      ∧ t.cur.instret = s.cur.instret + 1 ∧ OnlyCur s t ∧ SameSpecials s.cur t.cur ∧ SameFlags s t ∧ OnlyRegs s t [])
    ∧ (∀ i : BitVec 20, Ready (.jal i) s → ∃ t, exec (.jal i) s = .next t ∧ t.cur.slot = .done
      ∧ t.cur.t.pc = BitVec.ofInt 64 (s.bundleOf.toNat + 8 * i.toInt) ∧ t.cur.ready = s.cycle + 2 + s.cur.iss.stall
      ∧ t.cur.instret = s.cur.instret + 1 ∧ OnlyCur s t ∧ SameSpecials s.cur t.cur ∧ SameFlags s t
      ∧ OnlyRegs s t [(.s, 1)] ∧ ResultIn s t .s 1 ((s.bundleOf + 8).setWidth 512) 1)
    ∧ (∀ (d a : BitVec 5) (i : BitVec 10), let target := s.rs a + BitVec.ofInt 64 (8 * i.toInt)
      Ready (.jr d a i) s →
      (target.toNat % 8 = 0 → ∃ t, exec (.jr d a i) s = .next t ∧ t.cur.slot = .done ∧ t.cur.t.pc = target
        ∧ t.cur.ready = s.cycle + 3 + s.cur.iss.stall ∧ t.cur.instret = s.cur.instret + 1 ∧ OnlyCur s t
        ∧ SameSpecials s.cur t.cur ∧ SameFlags s t ∧ OnlyRegs s t (if d = 0 then [] else [(.s, d.toNat)])
        ∧ (d ≠ 0 → ResultIn s t .s d.toNat ((s.bundleOf + 8).setWidth 512) 1))
      ∧ (target.toNat % 8 ≠ 0 → Traps (.jr d a i) s cBadTarget target))

/-- TakeTrap (06 R140) for a synchronous cause at user and at supervisor level: TPC, TCAUSE and TVAL are saved, the level rises
by one, and the core goes on at TVEC or at MVEC; at machine level it stops. `trap` takes USER_TRAP: TPC receives the resume slot,
TVAL imm20 and, in bit 32, whether the word stands in word 1 of a lone bundle; it counts in INSTRET (log entry 39), and it waits
while an earlier word can still fault. In a cordon at user level (R144), where the slot of a bundle traps at some members, and every
earlier word has cleared, every member enters its trap at the same word: with its own cause where it has one, the others with
CORDON_PEER and the code of the lowest lane that has one. -/
def Obligations.TrapEntrySavesAndRaisesTheLevel : Prop :=
  ∀ s : State,
    (∀ (code : BitVec 8) (tval : W64), s.cur.uncleared = false → code ≠ cUserTrap → code ≠ cQuiescent → code ≠ cWeightLost →
      (s.cur.pl = 0 → Enters s (s.trapNow code tval) code tval s.cur.iss.pc false 1 s.cur.tvec)
      ∧ (s.cur.pl = 1 → Enters s (s.trapNow code tval) code tval s.cur.iss.pc false 2 s.cur.mvec)
      ∧ (s.cur.pl = 2 → (s.trapNow code tval).cur.run = .stopped))
    ∧ (∀ i : BitVec 20, Ready (.trap i) s →
      (s.cur.uncleared = false → (s.cur.pl = 0 ∨ s.cur.pl = 1) → ∃ t, exec (.trap i) s = .next t
        ∧ Enters s t cUserTrap (BitVec.ofNat 64 (i.toNat + if s.cur.iss.lone1 then 2 ^ 32 else 0)) s.cur.iss.next false
            (s.cur.pl + 1) (if s.cur.pl = 0 then s.cur.tvec else s.cur.mvec)
        ∧ t.cur.instret = s.cur.instret + 1)
      ∧ (s.cur.uncleared = true → exec (.trap i) s = .next s.hold))
    ∧ ∀ (n f : Nat) (pc b resume : W64), let ms := s.cordonOf n
      -- what the slot does at a member by itself
      let u (m : Nat) : Core := (s.memberRun m pc b).coreAt m
      let code (m : Nat) : BitVec 8 := (u m).tcause.extractLsb' 0 8
      ms.Nodup → (s.coreAt n).marked = false →
      (∀ m ∈ ms, (s.coreAt m).pl = 0 ∧ (s.coreAt m).uncleared = false ∧ ((u m).slot = .done ∨ (u m).slot = .trapped)
        ∧ s.barred (s.memberRun m pc b) ms m = false
        ∧ ((u m).slot = .trapped → (u m).tpc = resume ∧ code m ≠ cQuiescent ∧ code m ≠ cWeightLost)) →
      f ∈ ms → (u f).slot = .trapped → code f ≠ cUserTrap →
      (∀ m ∈ ms, m ≠ f → (u m).slot = .trapped → (s.coreAt f).lane.toNat < (s.coreAt m).lane.toNat) →
        (∀ m ∈ ms, CordonEnters (s.coreAt m) ((cordonSlot s n pc b).coreAt m)
          (if (u m).slot = .trapped then code m else cCordonPeer)
          (if (u m).slot = .trapped then (u m).tval else (code f).setWidth 64) resume (s.coreAt f).lane.toNat)
        ∧ ∀ k, k ∉ ms → (cordonSlot s n pc b).coreAt k = s.coreAt k

/-- `tret` outside a cordon: the level becomes TCAUSE.PPL, the PC TPC and the nominal slot time 0, results complete, and
fetch becomes coherent; a TPC that cannot be fetched takes BAD_TARGET. In a cordon a return to user level waits until every
other member waits at its own with the same TPC; then it completes, and theirs complete at their own slots: that only a return to
user level waits, and that the others complete at their own slots, is the model's reading of R144 (log entry 26). What fetch then sees
has the thread's own stores that are accepted and not yet performed (log entry 9). -/
def Obligations.TretReturnsToTpcAtPpl : Prop :=
  ∀ (s : State), Ready .tret s → s.cur.uncleared = false →
    (s.cur.tretGo = true → ∃ t, exec .tret s = .next t ∧ OnlyCur s t ∧ t.cur.slot = .done ∧ t.cur.tretGo = false
      ∧ t.cur.pl = s.cur.tcause.extractLsb' 20 2 ∧ t.cur.t.pc = s.cur.tpc ∧ t.cur.instret = s.cur.instret + 1)
    ∧ (s.cur.tretGo = false → (s.retire.resumable s.cur.tpc = true → (s.cur.leader = none ∧ s.cur.members = []) ∨ s.cur.tcause.extractLsb' 20 2 ≠ 0 → ∃ t, exec .tret s = .next t
      ∧ OnlyCur s t ∧ t.cur.pl = s.cur.tcause.extractLsb' 20 2 ∧ t.cur.t.pc = s.cur.tpc ∧ t.cur.t.nom = 0
      ∧ t.cur.icache = [] ∧ t.cur.code = some (s.retire.codeFor s.ev.core) ∧ t.cur.slot = .done
      ∧ ((∀ x ∈ s.cur.mem, x.isStore = true → x.performed = true) → t.cur.code = some s.codeView)
      ∧ t.cur.ready = max (s.cycle + 6 + s.cur.iss.stall) s.cur.t.divDue ∧ t.cur.instret = s.cur.instret + 1
      ∧ t.cur.t.s = s.cur.t.finish.s ∧ t.cur.t.v = s.cur.t.finish.v ∧ t.cur.t.p = s.cur.t.finish.p
      ∧ SameThread s.cur.t t.cur.t ∧ t.cur.tcause = s.cur.tcause ∧ t.cur.tval = s.cur.tval ∧ t.cur.tpc = s.cur.tpc
      ∧ t.cur.tvec = s.cur.tvec ∧ t.cur.mvec = s.cur.mvec)
    ∧ (s.retire.resumable s.cur.tpc = false → Traps .tret s cBadTarget s.cur.tpc)
    ∧ (s.retire.resumable s.cur.tpc = true → s.cur.tcause.extractLsb' 20 2 = 0 → 1 < (s.cordonOf s.ev.core).length →
        s.ev.core ∈ s.cordonOf s.ev.core →
        ((∀ m ∈ s.cordonOf s.ev.core, m ≠ s.ev.core → (s.coreAt m).tretWait = true ∧ (s.coreAt m).tpc = s.cur.tpc) →
          ∃ t, exec .tret s = .next t ∧ t.cur.slot = .done ∧ t.cur.pl = 0 ∧ t.cur.t.pc = s.cur.tpc
            ∧ ∀ m ∈ s.cordonOf s.ev.core, m ≠ s.ev.core → (t.coreAt m).tretGo = true)
        ∧ (∀ m ∈ s.cordonOf s.ev.core, m ≠ s.ev.core → (s.coreAt m).tretWait = false ∨ (s.coreAt m).tpc ≠ s.cur.tpc →
          ∃ t, Waits .tret s t ∧ t.cur.tretWait = true)))

/-- `csrr` writes s[d] with the view of the special register at the core's level. A read of FLAGS waits for an earlier `fdiv` or
`fsqrt`, and holds the next slot for what the latencies of the other float words lack: these times are the model's reading of R57 and
R110 (log entry 53). Nothing else changes. -/
def Obligations.CsrReadsGiveTheViewOfTheLevel : Prop :=
  ∀ (s : State) (d : BitVec 5) (c : BitVec 10), Ready (.csrr d c) s →
    (c = 2 → FloatDivOut s → ∃ t, Waits (.csrr d c) s t)
    ∧ ((c = 2 → ¬ FloatDivOut s) → ∃ t, Retires (.csrr d c) s t ∧ OnlyThread (s.csrDelay c.toNat) t ∧ SameFlags s t
      ∧ (c = 2 → s.cur.flagsDelay ≠ 0 → t.cur.ready = s.cycle + s.cur.flagsDelay + 1 + s.cur.iss.stall)
      ∧ (d ≠ 0 → ResultIn s t .s d.toNat ((csrSpec s c.toNat).setWidth 512) (if c = 2 then 0 else 1)
          ∧ OnlyRegs s t [(.s, d.toNat)])
      ∧ (d = 0 → OnlyRegs s t []))

/-- `csrw` stores what the level may write, and `csrx` does so and writes s[d] with the old view: a register that the level may not
write keeps its value, and nothing else of the core or outside it changes. A store of ones to FLAGSUM.ACC clears those bits of the
region's flags in the supergroup, at supervisor and machine level, but for those of this cycle; a write of VTT keeps the fields of
the table and turns a reserved type into 0. A write above user level waits for every earlier word that can still fault, and an access
to FLAGS for an earlier `fdiv` or `fsqrt`; that wait, and the bits of this cycle that a store to FLAGSUM.ACC leaves, are the model's
reading of R110 and R112 (log entry 53). -/
def Obligations.CsrWritesStoreWhatTheLevelMayWrite : Prop :=
  ∀ (s : State) (d a : BitVec 5) (c : BitVec 10),
    let waits := (c = 2 ∧ FloatDivOut s) ∨ (s.cur.pl ≠ 0 ∧ s.cur.uncleared = true)
    (Ready (.csrw a c) s → (waits → ∃ t, Waits (.csrw a c) s t)
      ∧ (¬ waits → ∃ t, Retires (.csrw a c) s t ∧ CsrWritten s c.toNat (s.rs a) t))
    ∧ (Ready (.csrx d a c) s → (waits → ∃ t, Waits (.csrx d a c) s t)
      ∧ (¬ waits → ∃ t u, Retires (.csrx d a c) s t ∧ CsrWritten s c.toNat (s.rs a) u
        ∧ t = u.outS d (csrSpec s c.toNat) (if c = 2 then 0 else 1)
        ∧ (d ≠ 0 → ResultIn s t .s d.toNat ((csrSpec s c.toNat).setWidth 512) (if c = 2 then 0 else 1))))

/-- `nop` and `nop` of class A: the next slot follows, INSTRET counts the word, and nothing else changes. -/
def Obligations.NopWordsChangeNothing : Prop :=
  ∀ (s : State), (Ready .nop s → exec .nop s = .next s.retire ∧ Retires .nop s s.retire)
    ∧ (Ready .nopA s → exec .nopA s = .next s.retire ∧ Retires .nopA s s.retire)

/-- A load: its checks come first, and trap; then its access enters the order with the fields of the word, and s[d] waits for
it. A generator window gives the value at once (07 R169). No register but s[d] changes, no flag and no byte of memory. Where the
line's home asks the thread to itself, the thread waits until it can leave and goes there, its generator descriptors with it (log entry
52), and the word is issued again (07 R176, R177). -/
def Obligations.LoadsEnterTheOrder : Prop :=
  ∀ (i : Instr) (s : State) (d : BitVec 5) (a : W64) (n : Nat) (sx : Bool) (h : BitVec 4) (o : Ord) (c : Scope) (hint : Hint),
    loadSpec s i = some (d, a, n, sx, h, o, c, hint) → Ready i s →
      Checked i s .load a n
      ∧ (s.retire.accCheck s.retire.cur .load a n = none → Moves i s a)
      ∧ (Goes s .load a n →
        (∀ g off, s.window a = .gen g off → ∃ t, Retires i s t ∧ OnlyCur s t ∧ SameFlags s t ∧ SameSpecials s.cur t.cur
          ∧ SameThread s.cur.t t.cur.t ∧ OnlyRegs s t (if d = 0 then [] else [(.s, d.toNat)]) ∧ t.cur.mem = s.cur.mem
          ∧ (d ≠ 0 → let v := ofBytes (genBytes (s.cur.gen g) off n)
              ResultIn s t .s d.toNat (BitVec.ofNat 512
                (if sx then (BitVec.ofInt 64 (sxBits (8 * n) v)).toNat else v)) 0))
        ∧ ((∀ g off, s.window a ≠ .gen g off) → ∃ t x, Retires i s t ∧ OnlyCur s t ∧ SameFlags s t
          ∧ SameSpecials s.cur t.cur ∧ SameThread s.cur.t t.cur.t ∧ OnlyRegs s t (if d = 0 then [] else [(.s, d.toNat)])
          ∧ t.cur.mem = s.cur.mem ++ [x] ∧ x.kind = .load ∧ x.form = (if sx then .sext else .zext) ∧ Fresh s x a (s.spLocs a n) h o c hint
          ∧ (d ≠ 0 → Expects t .s d.toNat x.tag)))

/-- A store: its checks come first; then its access, with the low bytes of the data register, enters the order, where the core
has room for one store more; without room the word waits. A generator window with a sink discards it. No byte of memory changes before the store is
performed, and no register. With room, its thread may move first, as for a load (07 R176). -/
def Obligations.StoresEnterTheOrder : Prop :=
  ∀ (i : Instr) (s : State) (d : BitVec 5) (a : W64) (n : Nat) (h : BitVec 4) (o : Ord) (c : Scope) (hint : Hint),
    storeSpec s i = some (d, a, n, h, o, c, hint) → Ready i s →
      Checked i s .store a n
      ∧ (s.retire.accCheck s.retire.cur .store a n = none → RoomForStore s → Moves i s a)
      ∧ (Goes s .store a n →
        (∀ g off, s.window a = .gen g off → ∃ t, Retires i s t ∧ OnlyCur s t ∧ SameFlags s t ∧ SameSpecials s.cur t.cur
          ∧ SameThread s.cur.t t.cur.t ∧ OnlyRegs s t [] ∧ t.cur.mem = s.cur.mem)
        ∧ ((∀ g off, s.window a ≠ .gen g off) →
          (¬ RoomForStore s → ∃ t, Waits i s t)
          ∧ (RoomForStore s → ∃ t x, Retires i s t ∧ OnlyCur s t ∧ SameFlags s t
            ∧ SameSpecials s.cur t.cur ∧ SameThread s.cur.t t.cur.t ∧ OnlyRegs s t []
            ∧ t.cur.mem = s.cur.mem ++ [x] ∧ x.kind = .store ∧ Fresh s x a (s.spLocs a n) h o c hint
            ∧ x.data.length = n ∧ ofBytes x.data = (s.rs d).toNat % 2 ^ (8 * n))))

/-- An atomic or `cas`: its checks come first; then its access, with its operand, enters the order, and s[d] and p7 wait for it.
No other register changes, no flag, and no byte of memory before the atomic is performed, with the value of the table. Its thread may
move first, as for a load (07 R176). -/
def Obligations.AtomicsEnterTheOrderAndComputeTheTable : Prop :=
  (∀ (op : Nat) (old x new : W64), op ≤ 9 → amoNew op old x new = BitVec.ofNat 64 (spAmo op old.toNat x.toNat new.toNat))
  ∧ ∀ (i : Instr) (s : State) (d : BitVec 5) (a : W64) (op : Nat) (h : BitVec 4) (o : Ord) (c : Scope) (hint : Hint),
    amoSpec s i = some (d, a, op, h, o, c, hint) → Ready i s →
      Checked i s .atomic a 8
      ∧ (s.retire.accCheck s.retire.cur .atomic a 8 = none → Moves i s a)
      ∧ (Goes s .atomic a 8 → ∃ t x, Retires i s t ∧ OnlyCur s t ∧ SameFlags s t ∧ SameSpecials s.cur t.cur
        ∧ SameThread s.cur.t t.cur.t ∧ OnlyRegs s t ((.p, 7) :: if d = 0 then [] else [(.s, d.toNat)])
        ∧ t.cur.mem = s.cur.mem ++ [x] ∧ x.kind = .atomic op ∧ Fresh s x a (s.spLocs a 8) h o c hint
        ∧ ofBytes x.data = (s.rs d).toNat ∧ x.data.length = 8 ∧ (op = 9 → x.data2 = s.rs (d + 1))
        ∧ (d ≠ 0 → Expects t .s d.toNat x.tag) ∧ Expects t .p 7 (x.tag + 1))

/-- `vld` and `vst` on registers that are no streams: their checks come first; then a load access with the format of its window, or
a store access with the encoded bytes, enters the order; a generator window gives its bytes at once, and one with a sink takes a
store's without one. A store sets the flags of its encoding and steps RMODE.SRCTR by its draws; where a draw would fault it
traps, and without room for one store more it waits. Their thread may move first, as for a load (07 R176). -/
def Obligations.VectorLoadsAndStoresEnterTheOrder : Prop :=
  ∀ (s : State) (d b : BitVec 5) (h : BitVec 4) (o : Ord) (c : Scope) (hint : Hint),
    let a := s.rs b
    let fmt := s.fmtAt a
    let z := storedSize fmt
    (let i := Instr.vld d b h o c hint
     Ready i s → Unbound i s → (s.cur.streamOf d.toNat) = none → Checked i s .vload a z
        ∧ (s.retire.accCheck s.retire.cur .vload a z = none → Moves i s a) ∧ (Goes s .vload a z →
        (∀ g off, s.window a = .gen g off → ∃ t, Retires i s t ∧ OnlyCur s t ∧ SameFlags s t ∧ SameSpecials s.cur t.cur
          ∧ SameThread s.cur.t t.cur.t ∧ OnlyRegs s t [(.v, d.toNat)] ∧ t.cur.mem = s.cur.mem
          ∧ ResultIn s t .v d.toNat (BitVec.ofNat 512 (ofBytes (genBytes (s.cur.gen g) off 64))) 0)
        ∧ ((∀ g off, s.window a ≠ .gen g off) → ∃ t x, Retires i s t ∧ OnlyCur s t ∧ SameFlags s t
          ∧ SameSpecials s.cur t.cur ∧ SameThread s.cur.t t.cur.t ∧ OnlyRegs s t [(.v, d.toNat)]
          ∧ t.cur.mem = s.cur.mem ++ [x] ∧ x.kind = .load ∧ x.form = .vec fmt
          ∧ Fresh s x a (s.spLocs a z ++ s.scaleLocs s.cur a) h o c hint ∧ Expects t .v d.toNat x.tag)))
    ∧ (let i := Instr.vst d b h o c hint
       let e := encodeWindow fmt (s.cur.rv d) (s.cur.t.rmode.toNat % 8) (s.cur.t.vtt.getLsbD 32) s.cur.srWord
       let draws (t : State) : Prop := FlagsIn s t e.flags 0 ∧ t.cur.t.rmode.toNat % 2 ^ 32 = s.cur.t.rmode.toNat % 2 ^ 32
         ∧ t.cur.t.rmode.toNat / 2 ^ 32 = (s.cur.t.rmode.toNat / 2 ^ 32 + e.draws) % 2 ^ 32
       Ready i s → Unbound i s → Checked i s .vstore a z
        ∧ (s.retire.accCheck s.retire.cur .vstore a z = none → RoomForStore s → Moves i s a) ∧ (Goes s .vstore a z →
        (∀ code tval, (RoomForStore s ∨ ∃ g off, s.window a = .gen g off) → s.srFault e.draws = some (code, tval) → Traps i s code tval)
        ∧ (s.srFault e.draws = none → (∃ g off, s.window a = .gen g off) → ∃ t, Retires i s t ∧ OnlyCur s t ∧ SameSpecials s.cur t.cur
            ∧ OnlyRegs s t [] ∧ t.cur.mem = s.cur.mem ∧ draws t)
        ∧ ((∀ g off, s.window a ≠ .gen g off) → ¬ RoomForStore s → ∃ t, Waits i s t)
        ∧ ((∀ g off, s.window a ≠ .gen g off) → s.srFault e.draws = none → RoomForStore s →
          ∃ t x, Retires i s t ∧ OnlyCur s t ∧ SameSpecials s.cur t.cur ∧ OnlyRegs s t []
            ∧ t.cur.mem = s.cur.mem ++ [x] ∧ x.kind = .store ∧ x.data = e.bytes
            ∧ Fresh s x a (s.spLocs a z ++ s.scaleLocs s.cur a) h o c hint ∧ draws t)))

/-- `vgath` and `vscat`: one access for each active lane that is in no generator window enters the order, lane by lane; a lane that
its checks refuse makes the word trap, with the address of the lowest such lane. v[d] waits for the replies of a gather; one whose
lanes all are in generator windows has their values at once. Four vector words with lanes to perform, and for a scatter stores that are
not acknowledged and leave no room for its own, make the word wait. For the first lane's line the thread may move (07 R176). `vamo`: one access for the whole line enters it with its operation, its lanes and its operand, and v[d]
waits for the old values. No flag and no other register changes. A source that is bound to a stream is the strip that the word pops. -/
def Obligations.GathersScattersAndVectorAtomicsEnterTheOrder : Prop :=
  ∀ (s : State) (d a b : BitVec 5) (p : BitVec 3) (t : BitVec 2),
    let lanesOf (i : Instr) := (s.showing i).laneList t a b p
    let refuses (i : Instr) (use : Use) : Prop := let l := lanesOf i
      ∀ k (hk : k < l.length), (∀ j (hj : j < k), s.retire.laneCheck s.retire.cur use (l[j]).2 (s.vw t) = none) →
        ∀ code, s.retire.laneCheck s.retire.cur use (l[k]).2 (s.vw t) = some code → Traps i s code (l[k]).2
    let out := s.cur.unacked + s.cur.pushes.length
    let busy (l' : List (Nat × W64)) : Prop := 4 ≤ s.cur.gathersOut ∨ (out ≠ 0 ∧ (if s.isDet s.cur then 256 else 32) < out + l'.length)
    (let i := Instr.vgath d a b p t; let l := lanesOf i; let l' := l.filter (fun e => !isGen (s.window e.2))
     Ready i s → Sourced i s → s.cur.streamOf d.toNat = none → refuses i .load
        ∧ ((∀ e ∈ l, s.retire.laneCheck s.retire.cur .load e.2 (s.vw t) = none) → 4 ≤ s.cur.gathersOut → ∃ u, Waits i s u)
        ∧ ((∀ e ∈ l, s.retire.laneCheck s.retire.cur .load e.2 (s.vw t) = none) → s.cur.gathersOut < 4 →
          ∀ e, l'.head? = some e → Moves i s e.2)
        ∧ ((∀ e ∈ l, s.retire.laneCheck s.retire.cur .load e.2 (s.vw t) = none) → (∀ e, l'.head? = some e → Stays s e.2) →
          s.cur.gathersOut < 4 → ∃ u xs, Retires i s u ∧ OnlyCur s u ∧ SameFlags s u ∧ SameSpecials (s.popping i).cur u.cur
            ∧ SameThread (s.popping i).cur.t u.cur.t ∧ OnlyRegs s u [(.v, d.toNat)]
            ∧ u.cur.mem = s.cur.mem ++ xs ∧ LaneAccesses s .load (s.vw t) l' xs
            ∧ (l' ≠ [] → ∃ e ∈ u.cur.t.pend, e.is .v d.toNat = true ∧ e.tag = s.cur.nextTag ∧ e.visible = none)
            ∧ (l' = [] → ∀ k, k < s.vn t → laneAt (s.vw t) (u.cur.t.read .v d.toNat (s.cur.iss.nom + 1)) k
                = match l.find? (fun e => decide (e.1 = k)) with
                  | some e => match s.window e.2 with | .gen g off => ofBytes (genBytes (s.cur.gen g) off (s.vw t)) | _ => 0
                  | none => if slotZero s.cur t then 0
                      else laneAt (s.vw t) ((s.cur.t.settle s.cur.iss.nom).read .v d.toNat (s.cur.iss.nom + 1)) k)))
    ∧ (let i := Instr.vscat d a b p t; let l := lanesOf i; let l' := l.filter (fun e => !isGen (s.window e.2))
       Ready i s → Sourced i s → refuses i .store
        ∧ ((∀ e ∈ l, s.retire.laneCheck s.retire.cur .store e.2 (s.vw t) = none) → l' ≠ [] → busy l' → ∃ u, Waits i s u)
        ∧ ((∀ e ∈ l, s.retire.laneCheck s.retire.cur .store e.2 (s.vw t) = none) → ¬ busy l' → ∀ e, l'.head? = some e → Moves i s e.2)
        ∧ ((∀ e ∈ l, s.retire.laneCheck s.retire.cur .store e.2 (s.vw t) = none) → (∀ e, l'.head? = some e → Stays s e.2) →
          l' = [] ∨ ¬ busy l' → ∃ u xs, Retires i s u ∧ OnlyCur s u ∧ SameFlags s u
            ∧ SameSpecials (s.popping i).cur u.cur ∧ SameThread (s.popping i).cur.t u.cur.t ∧ OnlyRegs s u []
            ∧ u.cur.mem = s.cur.mem ++ xs ∧ LaneAccesses s .store (s.vw t) l' xs
            ∧ ∀ k (hk : k < l'.length) (hx : k < xs.length), (xs[k]).data.length = s.vw t
                ∧ ofBytes (xs[k]).data = (s.showing i).vl t d (l'[k]).1))
    ∧ ∀ op : BitVec 2,
      let i := Instr.vamo d op b p t
      let a := s.rs b
      Ready i s → Sourced i s → Checked i s .vatomic a 64
        ∧ (s.retire.accCheck s.retire.cur .vatomic a 64 = none → Moves i s a) ∧ (Goes s .vatomic a 64 →
        ∃ v x, Retires i s v ∧ OnlyCur s v ∧ SameFlags s v ∧ SameSpecials (s.popping i).cur v.cur ∧ SameThread (s.popping i).cur.t v.cur.t
          ∧ OnlyRegs s v [(.v, d.toNat)] ∧ v.cur.mem = s.cur.mem ++ [x]
          ∧ x.kind = .vatomic op.toNat (s.vw t) (s.rp p) (slotZero s.cur t)
          ∧ Fresh s x a (s.spLocs a 64) 0 .plain .dev .default ∧ ofBytes x.data = ((s.showing i).cur.rv d).toNat
          ∧ ∃ e ∈ v.cur.t.pend, e.is .v d.toNat = true ∧ e.tag = x.tag ∧ e.visible = none)

/-- `hnew` and `hfork` take the lowest free sequencer of the core's slice: h[h] names it with one holder and the scope of the word,
and p7 says whether one was free; `hfork` also places a join that waits for what was ordered under h[g]. Neither waits for earlier
words, but in a deterministic region both wait for their grant at the quantum end (R207). -/
def Obligations.HandleAllocation : Prop :=
  ∀ (s : State) (h g : BitVec 4) (c : Scope),
    (∀ i : Instr, i = .hnew h c ∨ i = .hfork h g c → Ready i s → s.isDet s.cur = true → s.cur.qgo = false →
      ∃ t, Waits i s t ∧ t.cur.txn = .grant ∧ t.seqrs = s.seqrs)
    ∧ (Ready (.hnew h c) s → s.isDet s.cur = false →
      (∀ id, s.freeSeqr s.ev.core = some id → ∃ t, Retires (.hnew h c) s t ∧ Writes s t [p7Of true] ∧ Plain s t
        ∧ t.cur.t.h = s.cur.t.h.set h.toNat (some { id := id, scope := c }) h.isLt ∧ t.cur.mem = s.cur.mem
        ∧ t.seqr id = { gen := id.extractLsb' 0 4, alloc := true, holders := 1, scope := c, owner := s.cur.ctxid.toNat,
                        next := 0, opens := [] }
        ∧ SeqrsBut s t id)
      ∧ (s.freeSeqr s.ev.core = none → ∃ t, Retires (.hnew h c) s t ∧ Writes s t [p7Of false] ∧ Plain s t
        ∧ t.cur.t.h = s.cur.t.h ∧ t.seqrs = s.seqrs))
    ∧ (Ready (.hfork h g c) s → Idle s →
      (∀ id, s.freeSeqr s.ev.core = some id → s.foreign id = false → ∃ t, Retires (.hfork h g c) s t ∧ Writes s t [p7Of true] ∧ Plain s t
        ∧ t.cur.t.h = s.cur.t.h.set h.toNat (some { id := id, scope := c }) h.isLt
        ∧ JoinsIn s g { id := id, scope := c } c (some 0) t.cur.mem
        ∧ t.seqr id = { gen := id.extractLsb' 0 4, alloc := true, holders := 1, scope := c, owner := s.cur.ctxid.toNat,
                        next := 1, opens := [0] }
        ∧ SeqrsBut s t id)
      ∧ (s.freeSeqr s.ev.core = none → ∃ t, Retires (.hfork h g c) s t ∧ Writes s t [p7Of false] ∧ Plain s t
        ∧ t.cur.t.h = s.cur.t.h ∧ t.seqrs = s.seqrs))

/-- `hjoin` into a handle issues at once and places a join there, at the wider of its scope and the handle's; into h0 it waits until
what was ordered under h[g] is performed. `hfree` empties h[h] at once and gives up one holder; the last one frees the sequencer
once no ticket is open, and while an earlier word can still fault the holder stays counted; in a deterministic region it is given up
at the quantum end (R207). A wait at system scope leaves no visitor copy that is older than a store it was for (R205). -/
def Obligations.HandleJoinAndFree : Prop :=
  ∀ (s : State) (h g : BitVec 4) (c : Scope),
    (Ready (.hjoin h g c) s →
      (∀ hd, s.handle h = some hd →
        let sc := if c.bits < hd.scope.bits then hd.scope else c
        (∃ t x, Retires (.hjoin h g c) s t ∧ Writes s t [] ∧ Plain s t ∧ t.cur.t.h = s.cur.t.h ∧ t.cur.mem.getLast? = some x
          ∧ x.kind = .join ∧ x.handle = some hd ∧ x.scope = sc ∧ x.performed = false)
        ∧ (Idle s → s.foreign hd.id = false → ∃ t, Retires (.hjoin h g c) s t
          ∧ JoinsIn s g hd sc (some (s.seqr hd.id).next) t.cur.mem
          ∧ (let q := s.seqr hd.id; t.seqr hd.id = { q with next := q.next + 1, opens := q.opens ++ [q.next] })
          ∧ SeqrsBut s t hd.id))
      ∧ (s.handle h = none → Idle s → (∀ hg, s.handle g = some hg → QuietUnder s hg) →
          ∃ t, Retires (.hjoin h g c) s t ∧ Writes s t [] ∧ Plain s t ∧ t.cur.t.h = s.cur.t.h ∧ t.seqrs = s.seqrs
            ∧ (c = .sys → s.handle g = none → NoOlderCopy t (fun w => w.thread = s.curThread ∧ w.ticket = none)))
      ∧ (∀ ms ts, s.handle h = none → s.cur.txn = .marks ms ts → MarksDone s ms ts (fun x => s.handle g = none ∧ x.handle = none ∧ x.isJoin = false) →
          ∃ t, Retires (.hjoin h g c) s t ∧ Writes s t [] ∧ Plain s t ∧ t.cur.txn = .none ∧ t.seqrs = s.seqrs)
      ∧ (∀ hg, s.handle h = none → s.handle g = some hg → Idle s → BusyUnder s hg → ∃ t, Waits (.hjoin h g c) s t))
    ∧ (Ready (.hfree h) s → ∀ hd, s.handle h = some hd → s.isDet s.cur = true →
      ∃ t p, Retires (.hfree h) s t ∧ Writes s t [] ∧ Plain s t ∧ t.cur.t.h = s.cur.t.h.set h.toNat none h.isLt
        ∧ p.body = .unhold hd.id ∧ p.dest = .core s.ev.core
        ∧ (s.cur.uncleared = false → t.cur.heldOut = s.cur.heldOut ++ [p])
        ∧ (s.cur.uncleared = true → ∃ e, t.cur.later = s.cur.later ++ [e] ∧ e.pkt = p ∧ t.cur.heldOut = s.cur.heldOut))
    ∧ (Ready (.hfree h) s → ∀ hd, s.handle h = some hd → s.isDet s.cur = false →
      ∃ t, Retires (.hfree h) s t ∧ Writes s t [] ∧ Plain s t ∧ t.cur.t.h = s.cur.t.h.set h.toNat none h.isLt
        ∧ (s.cur.uncleared = true → ∃ x, t.cur.mem.getLast? = some x ∧ x.kind = .unhold hd.id)
        ∧ (s.cur.mem = [] → s.cur.uncleared = false → (s.seqr hd.id).alloc = true → (s.seqr hd.id).gen = hd.id.extractLsb' 0 4 →
            t.cur.mem = [] ∧ SeqrsBut s t hd.id
            ∧ (2 ≤ (s.seqr hd.id).holders → t.seqr hd.id = { s.seqr hd.id with holders := (s.seqr hd.id).holders - 1 })
            ∧ ((s.seqr hd.id).holders = 1 → (s.seqr hd.id).opens = [] →
                (t.seqr hd.id).alloc = false ∧ (t.seqr hd.id).gen.toNat = (if (s.seqr hd.id).gen = 15 then 1
                  else (s.seqr hd.id).gen.toNat + 1))))

/-- `hwait` completes once the thread's own accesses under the handle are performed, and waits while one is not. `fence` completes
once all of the thread's own accesses and what was ordered under every handle that it holds are, but for engine commands, and waits
while one is not. At system scope no visitor copy is then older than a store that they were for (R205). They change no register, no
memory and no handle. -/
def Obligations.HandleWaitAndFence : Prop :=
  ∀ (s : State) (h : BitVec 4) (c : Scope),
    (Ready (.hwait h c) s →
      let under (x : Access) : Prop := (∀ id, x.kind ≠ .unhold id) ∧ x.handle.map (·.id) = (s.handle h).map (·.id)
      ((∀ x ∈ s.cur.mem, under x → x.performed = true) → ∃ t, Retires (.hwait h c) s t ∧ Writes s t [] ∧ Plain s t
        ∧ t.cur.t.h = s.cur.t.h ∧ t.cur.mem = s.cur.mem ∧ t.seqrs = s.seqrs
        ∧ (c = .sys ∨ (s.handle h).map (·.scope) = some .sys →
            NoOlderCopy t (fun w => w.thread = s.curThread ∧ w.ticket.map (·.1) = (s.handle h).map (·.id)))
        ∧ (c ≠ .sys → (s.handle h).map (·.scope) ≠ some .sys → t.stale = s.stale))
      ∧ ((∃ x ∈ s.cur.mem, under x ∧ x.performed = false) → ∃ t, Waits (.hwait h c) s t ∧ t.cur.mem = s.cur.mem))
    ∧ (Ready (.fence c) s →
      (Idle s → (∀ k : Nat, ∀ hd, 0 < k → s.cur.t.h.toList[k]? = some (some hd) → QuietUnder s hd) →
        ∃ t, Retires (.fence c) s t ∧ Writes s t [] ∧ Plain s t ∧ t.cur.t.h = s.cur.t.h ∧ t.cur.mem = [] ∧ t.seqrs = s.seqrs
          ∧ (c = .sys → NoOlderCopy t (fun w => w.thread = s.curThread)))
      ∧ (∀ ms ts, s.cur.txn = .marks ms ts → MarksDone s ms ts (fun x => x.isJoin = false) → ∃ t, Retires (.fence c) s t
        ∧ Writes s t [] ∧ Plain s t ∧ t.cur.t.h = s.cur.t.h ∧ t.cur.mem = s.cur.mem ∧ t.cur.txn = .none ∧ t.seqrs = s.seqrs
        ∧ (c = .sys → NoOlderCopy t (fun w => w.thread = s.curThread)))
      ∧ ((∃ x ∈ s.cur.mem, x.performed = false ∧ x.isJoin = false) → ∃ t, Waits (.fence c) s t)
      ∧ (Idle s → (∃ k : Nat, ∃ hd, 0 < k ∧ s.cur.t.h.toList[k]? = some (some hd) ∧ BusyUnder s hd) → ∃ t, Waits (.fence c) s t))

/-- `send`: the word takes its weight, and a message with the payload registers leaves for the core, the home core or the slice
queue that s[d] names; it takes a credit, and waits where the core has none. While an earlier word can still fault the message waits in
the core (06 R141), and the word goes on. A reference that it passes is no longer the register's. No register changes. -/
def Obligations.SendEmitsAMessage : Prop :=
  ∀ (s : State) (d a p : BitVec 5) (h : BitVec 4) (f : BitVec 1), let i := Instr.send d a p h f; let v := s.rs d; let amt := s.rs a
    Ready i s → s.cur.marked = false → s.destCheck v = none → s.futCheck p f = none → CanTake s (amt.toNat % 2 ^ 32) →
      (s.cur.credits = 0 ∨ s.ticketWait h = true → ∃ t, Waits i s t)
      ∧ (s.cur.uncleared = true → s.cur.credits ≠ 0 → s.ticketWait h = false → s.cur.txn = .none → ∃ t e, Retires i s t ∧ Writes s t []
        ∧ t.net = s.net ∧ t.cur.later = s.cur.later ++ [e] ∧ e.msg = true ∧ e.instret = s.cur.iss.instret ∧ e.pkt.dest = s.destOf v
        ∧ t.cur.credits = s.cur.credits - 1 ∧ t.cur.t.w.toNat + spTake s.cur.t.w (amt.toNat % 2 ^ 32) = s.cur.t.w.toNat)
      ∧ (Settled s → s.cur.injVanish = false → s.cur.injHold = none → s.ticketWait h = false → s.cur.credits ≠ 0 →
        ∃ t m b, Retires i s t ∧ Writes s t [] ∧ Plain s t
        ∧ Sent s m (if v.toNat / 2 ^ 62 = 0 then 2 else if v.toNat / 2 ^ 62 = 1 then 1 else 3) amt
            (spTake s.cur.t.w (amt.toNat % 2 ^ 32)) p f (s.handleId h)
        ∧ t.net = s.net ++ [{ src := s.ev.core, dest := s.destOf v, ctx := s.cur.ctxid.toNat, body := b, level := s.cur.pl,
                              region := s.cur.region }]
        ∧ b = (if v.toNat / 2 ^ 62 = 1 then .start m (v.toNat / 2 ^ 58 % 16) (BitVec.ofNat 64 (v.toNat % 2 ^ 56)) else .msg m none)
        ∧ t.cur.credits = s.cur.credits - 1 ∧ t.cur.t.w.toNat + spTake s.cur.t.w (amt.toNat % 2 ^ 32) = s.cur.t.w.toNat
        ∧ t.cur.t.fmask = if f = 1 then s.cur.t.fmask &&& ~~~(regMark p.toNat) else s.cur.t.fmask)

/-- `qenq` sends its message to the slice queue and waits; the answer gives s[d] its status, and on 0 the reference that it passed
is no longer the register's. -/
def Obligations.QenqAsksAndTakesTheAnswer : Prop :=
  ∀ (s : State) (d a p : BitVec 5) (h : BitVec 4) (f : BitVec 1), let i := Instr.qenq d a p h f; let v := s.rs d; let amt := s.rs a
    Ready i s →
    (Settled s → v.toNat / 2 ^ 62 = 2 → s.destCheck v = none → s.isRunQueue (v.extractLsb' 0 32) = false →
      s.futCheck p f = none → CanTake s (amt.toNat % 2 ^ 32) → s.cur.injVanish = false → s.cur.injHold = none →
      s.ticketWait h = false → s.cur.credits ≠ 0 → ∃ t m, Waits i s t ∧ t.cur.txn = .qenq
        ∧ Sent s m 3 amt (spTake s.cur.t.w (amt.toNat % 2 ^ 32)) p f (s.handleId h)
        ∧ t.net = s.net ++ [{ src := s.ev.core, dest := .queue (v.extractLsb' 0 32), ctx := s.cur.ctxid.toNat,
                              body := .qask m s.cur.t.run, level := s.cur.pl, region := s.cur.region }])
    ∧ (∀ st, s.cur.txn = .answered st → ∃ t, Retires i s t ∧ Writes s t [(.s, d.toNat, BitVec.ofNat 64 st)] ∧ Plain s t
        ∧ t.cur.txn = .none ∧ t.net = s.net
        ∧ t.cur.t.fmask = if f = 1 ∧ st = 0 then s.cur.t.fmask &&& ~~~(regMark p.toNat) else s.cur.t.fmask)
    ∧ (v.toNat / 2 ^ 62 ≠ 2 → s.cur.txn = .none → Traps i s cBadAddress v)

/-- `ibpop` takes the oldest message of the inbox: its payload to s[d] to s[d+5], its head to s[d+6], its weight to w; with none
there it takes the oldest entry of the spill queue, whose weight is home, and with none in either it sleeps. `ibpeek` shows the head
in s[d], or 0, and takes nothing. A reference that no mark of d can cover traps FUTURE. Where the entry's page is not mapped, the word
parks or takes the fault (R181). -/
def Obligations.InboxWordsTakeTheOldestMessage : Prop :=
  ∀ (s : State) (d : BitVec 5) (h : BitVec 4), Settled s → d.toNat + 6 < 32 →
    let fits (m : Msg) : Prop := m.fut = true → 4 ≤ d.toNat ∧ d.toNat ≤ 19
    let wrote (m : Msg) : List (RFile × Nat × W64) :=
      (m.payload.zip (List.range 6)).map (fun e => (.s, d.toNat + e.2, e.1)) ++ [(.s, d.toNat + 6, m.head)]
    let taken (m : Msg) (t : State) : Prop := Writes s t (wrote m) ∧ Plain s t
      ∧ t.cur.t.h = (if m.hnd = 0 ∨ h = 0 then s.cur.t.h
          else s.cur.t.h.set h.toNat (some { id := m.hnd, scope := s.scopeOf m.hnd }) h.isLt)
      ∧ t.cur.t.fmask = if m.fut then s.cur.t.fmask ||| regMark d.toNat else s.cur.t.fmask
    (∀ m rest, s.cur.inbox = m :: rest → s.fresh m = true → m.payload.length = 6 →
      (Ready (.ibpop d h) s → (fits m → ∃ t, Retires (.ibpop d h) s t ∧ taken m t ∧ t.cur.inbox = rest
          ∧ t.cur.t.w = s.cur.t.w + m.weight ∧ t.net = s.net)
        ∧ (¬ fits m → Traps (.ibpop d h) s cFuture (futureTval 0 (m.payload.getD 0 0))))
      ∧ (Ready (.ibpeek d) s → ∃ t, Retires (.ibpeek d) s t ∧ Writes s t [(.s, d.toNat, m.head)] ∧ Plain s t
        ∧ t.cur.inbox = s.cur.inbox ∧ t.cur.t.w = s.cur.t.w))
    ∧ (∀ qh q, s.cur.inbox = [] → s.spillOf s.cur = some (qh, q) → q.head < q.tail → let m := s.ringHead q
      let entry := [(q.entry q.head, 64)]
      (Ready (.ibpop d h) s → HeldUp (.ibpop d h) s entry) ∧ (Ready (.ibpeek d) s → HeldUp (.ibpeek d) s entry)
      ∧ (Ready (.ibpop d h) s → Reached s entry → (fits m → ∃ t, Retires (.ibpop d h) s t ∧ taken m t ∧ t.cur.t.w = s.cur.t.w
          ∧ FMap.get? t.queues (queueKey qh) = some { q with head := q.head + 1 })
        ∧ (¬ fits m → Traps (.ibpop d h) s cFuture (futureTval 0 (m.payload.getD 0 0))))
      ∧ (Ready (.ibpeek d) s → Reached s entry →
          ∃ t, Retires (.ibpeek d) s t ∧ Writes s t [(.s, d.toNat, m.head)] ∧ Plain s t ∧ t.queues = s.queues))
    ∧ (s.cur.inbox = [] → (s.spillOf s.cur = none ∨ ∃ qh q, s.spillOf s.cur = some (qh, q) ∧ q.head = q.tail) →
      (Ready (.ibpop d h) s → ∃ t, Waits (.ibpop d h) s t ∧ t.cur.txn = .asleep 0)
      ∧ (Ready (.ibpeek d) s → ∃ t, Retires (.ibpeek d) s t ∧ Writes s t [(.s, d.toNat, 0)] ∧ Plain s t))

/-- `qdeq` and `qtry` take the oldest entry of a slice queue that the core may use; on an empty one `qdeq` sleeps among its sleepers,
until an entry is handed to it, and `qtry` gives zeros with p7 = 0. A queue that the core may not use traps QUEUE, and a reference
that no mark of d can cover FUTURE. Where the entry's page is not mapped, the word parks or takes the fault (R181). -/
def Obligations.QueueWordsTakeTheOldestEntry : Prop :=
  ∀ (s : State) (d a : BitVec 5) (e : BitVec 4), d.toNat + 6 < 32 → let h := (s.rs a).extractLsb' 0 32
    let fits (m : Msg) : Prop := m.fut = true → 4 ≤ d.toNat ∧ d.toNat ≤ 19
    let wrote (m : Msg) : List (RFile × Nat × W64) :=
      (m.payload.zip (List.range 6)).map (fun x => (.s, d.toNat + x.2, x.1)) ++ [(.s, d.toNat + 6, m.head)]
    let handle (m : Msg) (t : State) : Prop := t.cur.t.h = (if m.hnd = 0 ∨ e = 0 then s.cur.t.h
      else s.cur.t.h.set e.toNat (some { id := m.hnd, scope := s.scopeOf m.hnd }) e.isLt)
    (Settled s → s.usableQueue h = none →
      (Ready (.qdeq d a e) s → Traps (.qdeq d a e) s cQueue (h.setWidth 64))
      ∧ (Ready (.qtry d a e) s → Traps (.qtry d a e) s cQueue (h.setWidth 64)))
    ∧ (∀ q, Settled s → s.usableQueue h = some q →
      (q.head = q.tail →
        (Ready (.qdeq d a e) s → ∃ t q', Waits (.qdeq d a e) s t ∧ t.cur.txn = .asleep h
          ∧ FMap.get? t.queues (queueKey h) = some q' ∧ q'.sleepers = q.sleepers ++ [s.ev.core] ∧ q'.head = q.head ∧ q'.tail = q.tail)
        ∧ (Ready (.qtry d a e) s → ∃ t, Retires (.qtry d a e) s t ∧ Plain s t ∧ t.queues = s.queues
          ∧ Writes s t ((List.range 7).map (fun k => (.s, d.toNat + k, 0)) ++ [p7Of false])))
      ∧ (q.head < q.tail → let m := s.ringHead q
        let entry := [(q.entry q.head, 64)]
        let queue (t : State) : Prop := FMap.get? t.queues (queueKey h) = some { q with head := q.head + 1 }
        (∀ i : Instr, i = .qdeq d a e ∨ i = .qtry d a e → Ready i s → HeldUp i s entry)
        ∧ (Ready (.qdeq d a e) s → Reached s entry → (fits m → ∃ t, Retires (.qdeq d a e) s t ∧ Plain s t ∧ queue t ∧ handle m t ∧ Writes s t (wrote m))
          ∧ (¬ fits m → Traps (.qdeq d a e) s cFuture (futureTval 0 (m.payload.getD 0 0))))
        ∧ (Ready (.qtry d a e) s → Reached s entry → (fits m → ∃ t, Retires (.qtry d a e) s t ∧ Plain s t ∧ queue t ∧ handle m t
            ∧ Writes s t (wrote m ++ [p7Of true]))
          ∧ (¬ fits m → Traps (.qtry d a e) s cFuture (futureTval 0 (m.payload.getD 0 0))))))
    ∧ ∀ m, s.cur.txn = .item m → s.cur.uncleared = false → m.payload.length = 6 → fits m → Ready (.qdeq d a e) s →
        ∃ t, Retires (.qdeq d a e) s t ∧ Plain s t ∧ t.queues = s.queues ∧ t.cur.txn = .none ∧ handle m t ∧ Writes s t (wrote m)

/-- `qnew` makes the lowest free queue of the core's slice over a ring in paged memory, and gives 6 with p7 = 0 where none is free;
a ring that is not aligned or not permitted traps, and so does, by the model's choice, one that is not paged (log entry 33). `qfree` frees a queue of the core's context, gives the number of its
entries and sends its sleepers on; it gives 2 for no queue and 3 for one it may not free. `qwatch` sets the core's one watch, which
takes one unit and fires at once where the queue has an entry, or withdraws it; a second watch, and a withdrawal without one, give
5. A queue that the core may not use traps QUEUE. `qfree` waits while the page of an entry is not mapped (R181). -/
def Obligations.QueueMakingFreeingAndWatching : Prop :=
  ∀ (s : State) (d a k : BitVec 5) (tag : BitVec 8), Settled s →
    (Ready (.qnew d a k) s → let base := s.rs a; let n := 64 * 2 ^ k.toNat; let slice := s.ev.core / 64
      let paged := s.window base = .paged ∧ s.window (base + BitVec.ofNat 64 (n - 1)) = .paged
      let free (j : Nat) : Bool := !(FMap.getD s.queues (slice * 1024 + j) Queue.reset).live
      (¬ paged → Traps (.qnew d a k) s cBadAddress base)
      ∧ (paged → base.toNat % 64 ≠ 0 → Traps (.qnew d a k) s cAlign base)
      ∧ (paged → base.toNat % 64 = 0 → ∀ p, s.ringDenied base n = some p → Traps (.qnew d a k) s cProtection p)
      ∧ (paged → base.toNat % 64 = 0 → s.ringDenied base n = none →
        ((List.range 1024).find? free = none → ∃ t, Retires (.qnew d a k) s t ∧ Plain s t ∧ t.queues = s.queues
          ∧ Writes s t [(.s, d.toNat, 6), p7Of false])
        ∧ ∀ j, (List.range 1024).find? free = some j → s.ev.core < 4096 →
          ∃ t q h, Retires (.qnew d a k) s t ∧ Plain s t ∧ FMap.get? t.queues (slice * 1024 + j) = some q ∧ q.live = true
            ∧ q.base = base ∧ q.k = k.toNat ∧ q.head = q.tail ∧ q.owner = s.cur.ctxid ∧ q.sleepers = [] ∧ q.watch = []
            ∧ h = BitVec.ofNat 32 ((slice * 1024 + j) % 2 ^ 20 * 2 ^ 12 + q.gen.toNat)
            ∧ Writes s t [(.s, d.toNat, BitVec.ofNat 64 (2 ^ 63 + h.toNat)), p7Of true]
            ∧ ∀ m, m ≠ slice * 1024 + j → FMap.get? t.queues m = FMap.get? s.queues m))
    ∧ (Ready (.qfree d a) s → let h := (s.rs a).extractLsb' 0 32
      (s.isRunQueue h = true → Traps (.qfree d a) s cQueue (h.setWidth 64))
      ∧ (s.isRunQueue h = false →
        (s.queueOf h = none → ∃ t, Retires (.qfree d a) s t ∧ Plain s t ∧ Writes s t [(.s, d.toNat, 2)] ∧ t.queues = s.queues)
        ∧ (∀ q, s.queueOf h = some q →
          (s.cur.ctxid ≠ q.owner → (s.cur.pl = 0 ∨ s.mayUse s.cur q = false) →
            ∃ t, Retires (.qfree d a) s t ∧ Plain s t ∧ Writes s t [(.s, d.toNat, 3)] ∧ t.queues = s.queues)
          ∧ (s.cur.ctxid = q.owner ∨ (s.cur.pl ≠ 0 ∧ s.mayUse s.cur q = true) →
            Mapped s ((List.range (q.tail - q.head)).map (fun k => (q.entry (q.head + k), 64))) → ∃ t q', Retires (.qfree d a) s t ∧ SameFlags s t ∧ SameSpecials s.cur t.cur
              ∧ Writes s t [(.s, d.toNat, BitVec.ofNat 64 ((q.tail - q.head) * 2 ^ 32))]
              ∧ FMap.get? t.queues (queueKey h) = some q' ∧ q'.live = false
              ∧ q'.gen.toNat = (if q.gen = 4095 then 1 else q.gen.toNat + 1)
              ∧ (∀ n ∈ q.sleepers, (t.coreAt n).txn = .freed)
              ∧ (q.head = q.tail → q.sleepers = [] → q.watch = [] → Plain s t)))))
    ∧ (Ready (.qwatch d a 0 tag) s → let h := (s.rs a).extractLsb' 0 32
      (s.usableQueue h = none → Traps (.qwatch d a 0 tag) s cQueue (h.setWidth 64))
      ∧ (∀ q, s.usableQueue h = some q →
        (s.cur.watch = none → 2 ≤ s.cur.t.w.toNat →
          (q.head = q.tail → ∃ t, Retires (.qwatch d a 0 tag) s t ∧ Plain s t ∧ Writes s t [(.s, d.toNat, 0)]
            ∧ t.cur.watch = some (h, tag, s.cur.t.vint) ∧ t.cur.t.w.toNat = s.cur.t.w.toNat - 1
            ∧ FMap.get? t.queues (queueKey h) = some { q with watch := q.watch ++ [(s.ev.core, tag)] })
          ∧ (q.head < q.tail → ∃ t p m, Retires (.qwatch d a 0 tag) s t ∧ Plain s t ∧ Writes s t [(.s, d.toNat, 0)]
            ∧ t.cur.watch = none ∧ t.cur.t.w.toNat = s.cur.t.w.toNat - 1 ∧ t.queues = s.queues
            ∧ t.net = s.net ++ [p] ∧ p.dest = .core s.ev.core ∧ p.body = .msg m none ∧ m.kind = 8 ∧ m.weight = 1
            ∧ m.payload.getD 0 0 = 0 ∧ m.payload.getD 2 0 = BitVec.ofNat 64 (q.tail - q.head)))
        ∧ (∀ w, s.cur.watch = some w →
          ∃ t, Retires (.qwatch d a 0 tag) s t ∧ Plain s t ∧ Writes s t [(.s, d.toNat, 5)] ∧ t.cur.watch = some w)))
    ∧ (Ready (.qwatch d a 1 tag) s → let h := (s.rs a).extractLsb' 0 32
      (s.usableQueue h = none → Traps (.qwatch d a 1 tag) s cQueue (h.setWidth 64))
      ∧ (s.usableQueue h ≠ none →
        (s.cur.watch = none → ∃ t, Retires (.qwatch d a 1 tag) s t ∧ Plain s t ∧ Writes s t [(.s, d.toNat, 5)])
        ∧ (∀ wh g, s.cur.watch = some (wh, g) → ∃ t p m, Retires (.qwatch d a 1 tag) s t ∧ Plain s t ∧ Writes s t [(.s, d.toNat, 0)]
          ∧ t.cur.watch = none ∧ t.net = s.net ++ [p] ∧ p.dest = .core s.ev.core ∧ p.body = .msg m none ∧ m.kind = 8
          ∧ m.payload.getD 0 0 = 8)))

/-- `wdraw` goes on with what it has gained once that is enough, else it asks the home core for more, up to the draw limit, where it
traps WEIGHT_STARVED; `wret` gives back half of w or the amount asked for, and keeps one unit; `waudit` gives the accounted sum and
the units lost, or 2 or 3 with p7 = 0 for a context that is not live or beyond the issuer's authority. That the sum is exact, of one
moment, is the model's choice (log entry 17): R230 lets units on their way be counted twice. -/
def Obligations.WeightWordsDrawReturnAndAudit : Prop :=
  ∀ (s : State) (d a : BitVec 5), let n := (s.rs a).toNat % 2 ^ 32
    (Ready (.wdraw d a) s → s.cur.uncleared = false →
      (∀ g, s.cur.txn = .drawn g → max 1 n ≤ g → ∃ t, Retires (.wdraw d a) s t ∧ Plain s t ∧ t.cur.txn = .none
        ∧ Writes s t [(.s, d.toNat, BitVec.ofNat 64 g)] ∧ t.net = s.net)
      ∧ (∀ g, (s.cur.txn = .none ∧ g = 0 ∨ s.cur.txn = .drawn g) → g < max 1 n → s.isDet s.cur = false →
          s.cur.t.draws < s.drawLimit s.cur → ∃ t, Waits (.wdraw d a) s t ∧ t.cur.txn = .draw g
        ∧ t.net = s.net ++ [{ src := s.ev.core, dest := .home s.cur.ctxid.toNat, ctx := s.cur.ctxid.toNat,
                              body := .draw s.cur.t.run }])
      ∧ (∀ g, (s.cur.txn = .none ∧ g = 0 ∨ s.cur.txn = .drawn g) → g < max 1 n → s.drawLimit s.cur ≤ s.cur.t.draws →
          Traps (.wdraw d a) s cWeightStarved (BitVec.ofNat 64 (max 1 n - g))))
    ∧ (Ready (.wret d a) s → Settled s → let w := s.cur.t.w.toNat; let r := min (if n = 0 then w / 2 else n) (w - 1)
      ∃ t, Retires (.wret d a) s t ∧ Plain s t ∧ Writes s t [(.s, d.toNat, BitVec.ofNat 64 r)] ∧ t.cur.t.w.toNat + r = w
        ∧ (let p : Packet := { src := s.ev.core, dest := .home s.cur.ctxid.toNat, ctx := s.cur.ctxid.toNat,
                               body := .wret s.cur.t.vint r }
           t.net = s.net ++ if r = 0 then [] else [p]))
    ∧ (Ready (.waudit d a) s → Settled s → let id := if s.cur.pl = 0 then s.cur.ctxid.toNat else n
      (∀ x, s.ctx? id = some x → (s.cur.pl = 0 ∨ s.cur.authority x = true) → ∃ t, Retires (.waudit d a) s t ∧ Plain s t
        ∧ Writes s t [(.s, d.toNat, BitVec.ofNat 64 (t.audit id % 2 ^ 32 * 2 ^ 32 + (x.total - t.audit id) % 2 ^ 32)), p7Of true])
      ∧ (s.ctx? id = none → ∃ t, Retires (.waudit d a) s t ∧ Plain s t ∧ Writes s t [(.s, d.toNat, 2), p7Of false])
      ∧ (∀ x, s.ctx? id = some x → s.cur.pl ≠ 0 → s.cur.authority x = false → ∃ t, Retires (.waudit d a) s t ∧ Plain s t
        ∧ Writes s t [(.s, d.toNat, 3), p7Of false]))

/-- `mcst` reads its list once, sends one message to each member that can be sent to, marks the others as failed, and keeps a record
with a unit of weight for its completion. `end` gives the run's weight back, adds its flags to FLAGSUM, empties its marks, its handles
and its frame, and leaves the core idle; a core without a context goes on, with its streams freed, and, by the model's choice, keeps its
weight, marks and handles (log entry 56). Where the memory that `end` uses is not mapped, it parks or takes PAGE_FAULT (R181). -/
def Obligations.MulticastAndEnd : Prop :=
  (∀ (s : State) (d a p : BitVec 5) (h : BitVec 4) (f : BitVec 1) (ms : List W64) (u : State),
    let i := Instr.mcst d a p h f; let v := s.rs d; let n := v.toNat / 2 ^ 56 + 1
    let each := if (s.rs a).toNat % 2 ^ 32 = 0 then 1 else (s.rs a).toNat % 2 ^ 32
    Ready i s → Idle s → v.toNat / 2 ^ 62 = 0 →
      (s.cur.listed = some ms ∧ ms.length = n ∧ u = s.retire
        ∨ s.cur.listed = none ∧ s.retire.loadList (BitVec.ofNat 64 (v.toNat % 2 ^ 56)) n = .ok (ms, u)) →
      (∀ m ∈ ms, m.toNat / 2 ^ 62 = 0 → u.absentEndpoint m = false) → s.ticketWait h = false →
      (s.cur.credits = 0 → ∃ t, Waits i s t)
      ∧ (s.cur.credits ≠ 0 → n * each + 1 < s.cur.t.w.toNat →
        ∃ t r, Retires i s t ∧ Writes s t [] ∧ SameFlags s t ∧ SameSpecials s.cur t.cur ∧ t.cur.mcsts = s.cur.mcsts ++ [r]
          ∧ r.total = n ∧ r.unit = each ∧ r.ctx = s.cur.ctxid.toNat ∧ r.vint = s.cur.t.vint ∧ t.cur.credits = s.cur.credits - 1
          ∧ t.cur.t.w.toNat + (n * each + 1) = s.cur.t.w.toNat
          ∧ (∀ k, k < 64 → r.failed.getLsbD k = match ms[k]? with | some m => decide (k < n) && !memberOk m | none => false)
          ∧ ∀ k m, ms[k]? = some m → k < n → memberOk m = true → ∃ x ∈ t.net, ∃ q, x.dest = s.destOf m
              ∧ x.body = .msg q (some (r.id * 64 + k))
              ∧ Sent s q (if m.toNat / 2 ^ 62 = 0 then 2 else 3) (s.rs a) each p f (s.handleId h)))
  ∧ ∀ (s : State), Ready .endH s → s.cur.marked = false → s.cur.replay = [] → s.cur.uncleared = false → s.cur.unacked = 0 →
    s.cur.t.div = none → s.isDet s.cur = false →
    (∀ a p, s.cur.ctxid ≠ 0 → (s.endAreas s.ev.core).findSome? (fun e => match s.lineMiss e with | some (a, .ok p) => some (a, p) | _ => none)
        = some (a, p) → (∃ t, Waits .endH s t ∧ t.cur.fpark.map (·.2.2) = some (BitVec.ofNat 64 a)) ∨ Traps .endH s cPageFault (BitVec.ofNat 64 a))
    ∧ (s.cur.ctxid = 0 → ∃ t, Retires .endH s t ∧ OnlyCur s t ∧ SameSpecials s.cur t.cur ∧ t.cur.run = s.cur.run
        ∧ t.cur.t.w = s.cur.t.w ∧ t.cur.t.fmask = s.cur.t.fmask ∧ t.cur.t.h = s.cur.t.h ∧ t.cur.t.s = s.cur.t.finish.s
        ∧ t.cur.t.streams = Vector.replicate 4 none)
    ∧ (s.cur.ctxid ≠ 0 → s.cur.leader = none → s.cur.members = [] → Mapped s (s.endAreas s.ev.core) →
      ∃ t, BecomesIdle .endH s t ∧ t.cur.t.fmask = 0 ∧ t.cur.t.h = Vector.replicate 16 none ∧ t.cur.t.frame = 0
        ∧ t.cur.t.streams = Vector.replicate 4 none
        ∧ (let p : Packet := { src := s.ev.core, dest := .home s.cur.ctxid.toNat, ctx := s.cur.ctxid.toNat,
                               body := .wret s.cur.t.vint s.cur.t.w.toNat }
           p ∈ t.net)
        ∧ FMap.getD t.flagAcc (s.cur.ctxid.toNat * 64 + s.ev.core / 64) 0
            = FMap.getD s.flagAcc (s.cur.ctxid.toNat * 64 + s.ev.core / 64) 0 ||| s.cur.t.finish.flags)
/-- `rackb` and `bar` go on once every participant has arrived with its accesses performed, `rackb` with the racking area changed;
a core that the mask leaves out, or that meets another barrier, gets the sign bit; else the core waits. -/
def Obligations.BarriersMeet : Prop :=
  ∀ (i : Instr) (s : State) (d a : BitVec 5) (v : BitVec 2) (rack : Bool), barSpec i = some (d, a, v, rack) → Ready i s →
    let ps := (s.participants v.toNat (s.rs a)).1; let mask := (s.participants v.toNat (s.rs a)).2
    (Settled s → ps.Nodup → s.ev.core ∈ ps → OthersArrived s ps v.toNat rack mask →
      ∃ t, Retires i s t ∧ SameFlags s t ∧ SameSpecials s.cur t.cur ∧ SameMem s t []
        ∧ Writes s t [(.s, d.toNat, if rack && !s.cur.live then 1 else 0)] ∧ t.cur.txn = .none
        ∧ t.cur.live = (if rack then !s.cur.live else s.cur.live)
        ∧ ∀ m, m ≠ s.ev.core → (m ∈ ps → (t.coreAt m).txn = .barDone
            ∧ (t.coreAt m).live = (if rack then !(s.coreAt m).live else (s.coreAt m).live)) ∧ (m ∉ ps → t.coreAt m = s.coreAt m))
    ∧ (s.cur.txn = .barDone → ∃ t, Retires i s t ∧ Plain s t ∧ t.cur.txn = .none ∧ t.cur.live = s.cur.live
        ∧ Writes s t [(.s, d.toNat, if rack && s.cur.live then 1 else 0)])
    ∧ (Settled s → (s.ev.core ∉ ps ∨ ∃ m ∈ ps, m ≠ s.ev.core ∧ ∃ e, (s.coreAt m).barrier? v.toNat s.cur.ctxid = some e ∧ e ≠ (rack, mask)) →
        ∃ t, Retires i s t ∧ Plain s t ∧ Writes s t [(.s, d.toNat, BitVec.ofNat 64 (2 ^ 63))])
    ∧ (∀ m, Settled s → s.ev.core ∈ ps → m ∈ ps → m ≠ s.ev.core → (∀ k ∈ ps, k ≠ s.ev.core → (s.coreAt k).txn = .none) →
        ∃ t, Waits i s t ∧ t.cur.txn = .barrier rack v.toNat mask)

/-- `spawn` gives s[d] the lowest free cell, with its mark, and p7 all ones: the units of the child leave w and go to the home
counter with its record. A run without a frame takes one first. With no free cell or frame it gives p7 = 0 and takes no unit and no
reference; it traps where the destination is none of a run queue. It waits for the tickets of earlier accesses under a handle that it
passes (R204), and parks or traps where memory that it uses cannot be reached or a frame is out of range (R181, R270). -/
def Obligations.SpawnMakesAChild : Prop :=
  ∀ (s : State) (d a p : BitVec 5) (h : BitVec 4) (f : BitVec 1), let i := Instr.spawn d a p h f; let v := s.rs d
    let ctx := s.cur.ctxid.toNat; let prio := v.toNat / 2 ^ 58 % 16
    let areas := s.withCtx (fun x => s.heapArea x :: ((s.freeFrames x).take 2).map frameArea ++ s.queueEntry x prio)
    let frames := s.withCtx (fun x => s.queueFrames x prio)
    let fails : Prop := ∃ t, Retires i s t ∧ SameFlags s t ∧ SameSpecials s.cur t.cur ∧ Writes s t [p7Of false]
      ∧ t.cur.t.w = s.cur.t.w ∧ t.cur.t.fmask = s.cur.t.fmask
    Ready i s → Settled s →
      (v.toNat / 2 ^ 62 ≠ 1 → Traps i s cBadAddress v)
      ∧ (v.toNat / 2 ^ 62 = 1 → s.destCheck v = none → s.futCheck p f = none → UsesNot i s [] s.ownFrame
        ∧ (UsesOk s [] s.ownFrame → (s.ticketWait h = true → ∃ t, Waits i s t) ∧ (s.ticketWait h = false → UsesNot i s areas frames)))
      ∧ (v.toNat / 2 ^ 62 = 1 → s.destCheck v = none → s.futCheck p f = none → UsesOk s [] s.ownFrame → s.ticketWait h = false →
        UsesOk s areas frames → (s.gated.needFrame = none → fails)
        ∧ ∀ u x, s.gated.needFrame = some u → u.ctxOf u.cur = some x →
          (u.freeCell x = none ∨ (u.takeFrame ctx).isSome = false → fails)
          ∧ ∀ cell, u.freeCell x = some cell → (u.takeFrame ctx).isSome = true → CanTake s ((s.rs a).toNat % 2 ^ 32) →
            ∃ t, Retires i s t ∧ SameFlags s t ∧ SameSpecials s.cur t.cur
              ∧ Writes s t [(.s, d.toNat, BitVec.ofNat 64 cell), p7Of true]
              ∧ t.cur.t.w.toNat + spTake s.cur.t.w ((s.rs a).toNat % 2 ^ 32) = s.cur.t.w.toNat
              ∧ t.cur.t.fmask = unmarkIf (f = 1) s.cur.t.fmask p ||| regMark d.toNat
              ∧ ∀ y, s.ctx? ctx = some y → y.vint = s.cur.t.vint →
                  ∃ z, t.ctx? ctx = some z ∧ z.H = y.H + spTake s.cur.t.w ((s.rs a).toNat % 2 ^ 32))
/-- The words on futures: `fpoll` reads one, `fset` resolves a pending one, `fref` copies, borrows or adopts a reference, `fdrop` gives one
up, and `fget` takes the value of a resolved one, consuming its reference where the word says so; at a pending one it leaves its record
among the waiters and its core idle. A register without a mark traps FUTURE; where memory that a word uses cannot be reached, or a frame
is out of range, the word parks, waits or traps (R181, R270). -/
def Obligations.FutureWords : Prop :=
  ∀ (s : State) (d a b : BitVec 5) (x : BitVec 1), Settled s → let v := s.rs a; let ref := v.toNat % 2 ^ 56
    let ctx := s.cur.ctxid.toNat; let own := UsesOk s [] s.ownFrame; let cell := UsesOk s [(ref, 32)] []
    let marked := s.cur.t.marked a.toNat = true
    (∀ i : Instr, i = .fpoll d a ∨ i = .fset d a b → Ready i s → (marked ∨ s.cur.t.frame ≠ 0 → UsesNot i s [] s.ownFrame)
      ∧ (own → s.mayName a = false → Traps i s cFuture (futureTval 0 v)) ∧ (own → s.mayName a = true → UsesNot i s [(ref, 32)] []))
    ∧ (Ready (.fpoll d a) s → own → s.mayName a = true → cell → ∃ t, Retires (.fpoll d a) s t ∧ Plain s t
        ∧ Writes s t (if s.vNum ref 1 = 2 then [(.s, d.toNat, BitVec.ofNat 64 (s.vNum (ref + 8) 8)), p7Of true]
            else [(.s, d.toNat, BitVec.ofNat 64 (s.vNum ref 1)), p7Of false]))
    ∧ (Ready (.fset d a b) s → own → s.mayName a = true → cell → let ws := s.waiting ref; let q := s.wakeUse ref
        UsesNot (.fset d a b) s [] ws ∧ (UsesOk s [] ws → UsesNot (.fset d a b) s q.1 q.2)
        ∧ (UsesOk s [] ws → UsesOk s q.1 q.2 →
          (s.vNum ref 1 = 1 → ∃ t, Retires (.fset d a b) s t ∧ Steady s t ∧ Writes s t [(.s, d.toNat, 0)]
            ∧ Effects s t (Resolved ctx ref 2 (s.rs b).toNat))
          ∧ (s.vNum ref 1 ≠ 1 → ∃ t, Retires (.fset d a b) s t ∧ Plain s t ∧ Writes s t [(.s, d.toNat, 4)])))
    ∧ (∀ m : BitVec 2, m ≠ 2 → Ready (.fref d a m) s → (¬ marked → Traps (.fref d a m) s cFuture (futureTval 0 v))
      ∧ (marked → UsesNot (.fref d a m) s [(ref, 32)] [])
      ∧ (marked → cell → s.vNum (ref + 4) 4 = 2 ^ 32 - 1 → Traps (.fref d a m) s cFuture (futureTval 4 v))
      ∧ (marked → cell → s.vNum (ref + 4) 4 ≠ 2 ^ 32 - 1 → ∃ t, Retires (.fref d a m) s t ∧ Steady s t ∧ Writes s t [(.s, d.toNat, v)]
        ∧ Effects s t (fun u w => w = u.putAll [(ref + 4, 4, u.vNum (ref + 4) 4 + 1)])
        ∧ t.cur.t.fmask = if m = 0 then s.cur.t.fmask ||| regMark d.toNat else s.cur.t.fmask))
    ∧ (Ready (.fref d a 2) s → (∀ y, s.ctxOf s.cur = some y → y.isCell ref = false) → Traps (.fref d a 2) s cFuture (futureTval 0 v))
    ∧ (∀ y, Ready (.fref d a 2) s → s.ctxOf s.cur = some y → y.isCell ref = true → UsesNot (.fref d a 2) s [(ref, 32)] []
      ∧ (cell → s.vNum ref 1 = 0 → Traps (.fref d a 2) s cFuture (futureTval 0 v))
      ∧ (cell → s.vNum ref 1 ≠ 0 → ∃ t, Retires (.fref d a 2) s t ∧ Plain s t ∧ Writes s t [(.s, d.toNat, v)]
          ∧ t.cur.t.fmask = s.cur.t.fmask ||| regMark d.toNat))
    ∧ (Ready (.fdrop a) s → (¬ marked → Traps (.fdrop a) s cFuture (futureTval 0 v)) ∧ (marked → UsesNot (.fdrop a) s [(ref, 32)] [])
      ∧ (marked → cell → ∃ t, Retires (.fdrop a) s t ∧ Steady s t ∧ Writes s t [] ∧ Effects s t (Dropped ctx ref)
        ∧ t.cur.t.fmask = s.cur.t.fmask &&& ~~~(regMark a.toNat)))
    ∧ (Ready (.fget d a x) s → (¬ marked → Traps (.fget d a x) s cFuture (futureTval 0 v))
      ∧ (marked → s.ownFut ≠ 0 → ref = s.ownFut → Traps (.fget d a x) s cFuture (futureTval 0 v))
      ∧ (marked → s.cur.t.frame ≠ 0 → (s.ownFut = 0 ∨ ref ≠ s.ownFut) → UsesNot (.fget d a x) s [] s.ownFrame
        ∧ (own → UsesNot (.fget d a x) s [(ref, 32)] [])
        ∧ (own → cell → s.vNum ref 1 = 2 ∨ s.vNum ref 1 = 3 → ∃ t, Retires (.fget d a x) s t ∧ Steady s t
            ∧ Writes s t [(.s, d.toNat, BitVec.ofNat 64 (s.vNum (ref + 8) 8)), p7Of (decide (s.vNum ref 1 = 2))]
            ∧ Effects s t (fun u w => if x = 1 then Dropped ctx ref u w else w = u)
            ∧ t.cur.t.fmask = unmarkIf (x = 1) s.cur.t.fmask a)
        ∧ (own → cell → s.vNum ref 1 = 1 → s.slaved = false → s.cur.t.div = none → s.cur.lane = 0 → s.cur.leader = none →
          s.cur.members = [] → let q := s.restUse 0xFFFE (.future ref)
            UsesNot (.fget d a x) s q.1 q.2
            ∧ (UsesOk s q.1 q.2 → popUpTo (s.cur.t.finish.saveMask 0xFFFE false) 54 ≤ 16 → ∃ t, BecomesIdle (.fget d a x) s t
              ∧ Leaves s t s.cur.iss.pc 0xFFFE s.cur.t.prio.toNat (.future ref)))))

/-- What an agent writes in a scratchpad of the device reads back. `sync` with no child left goes on at once; else it, `suspend` and
`yield` write the continuation record in the run's frame, with CODE, WEIGHT, VINT, FMASK, MASK and one slot for each register of the
mask; they give the run's weight back to the home counter, enqueue the record in the run queue or, for `sync`, leave it to wait for its
children, and leave the core idle; more than 16 slots trap FUTURE with their number. At a level above user the record resumes at TPC. -/
def Obligations.ContinuationWordsLeaveTheCore : Prop :=
  (∀ (s : State) (a n x : Nat), Scratch s a n → (s.putAll [(a, n, x)]).vNum a n = x % 256 ^ n
    ∧ ∀ b m, Scratch s b m → (∀ k ∈ s.keysAt b m, k ∉ s.keysAt a n) → (s.putAll [(a, n, x)]).vNum b m = s.vNum b m)
  ∧ (∀ (s : State) (m : BitVec 19) (x : BitVec 1), Ready (.sync m x) s → Settled s → s.cur.t.frame ≠ 0 →
    UsesOk s [] s.ownFrame → s.vNum (s.cur.t.frame.toNat + 0x10) 4 = 0 →
      exec (.sync m x) s = .next s.retire ∧ Retires (.sync m x) s s.retire)
  ∧ ∀ (i : Instr) (s : State) (mask : Nat) (ph : Bool) (prio : Nat) (park : ParkAt), leaveSpec s i = some (mask, ph, prio, park) →
    Ready i s → Settled s → s.cur.t.frame ≠ 0 → s.slaved = false → s.cur.t.div = none → s.cur.lane = 0 → s.cur.leader = none →
    s.cur.members = [] → UsesNot i s [] s.ownFrame ∧ (UsesOk s [] s.ownFrame →
    ((∃ m x, i = .sync m x) → s.vNum (s.cur.t.frame.toNat + 0x10) 4 ≠ 0) → let m := s.cur.t.finish.saveMask mask ph
      let k := popUpTo m 54; let q := s.restUse mask park
      UsesNot i s q.1 q.2
      ∧ (UsesOk s q.1 q.2 → 16 < k → Traps i s cFuture (futureTval 1 (BitVec.ofNat 64 k)))
      ∧ (UsesOk s q.1 q.2 → k ≤ 16 → ∃ t, BecomesIdle i s t ∧ t.cur.t.frame = 0
        ∧ Leaves s t (if s.cur.pl ≠ 0 then s.cur.tpc else if park = .sync then s.cur.iss.pc else s.cur.iss.next) m prio park
        ∧ FMap.getD t.flagAcc (s.cur.ctxid.toNat * 64 + s.ev.core / 64) 0
            = FMap.getD s.flagAcc (s.cur.ctxid.toNat * 64 + s.ev.core / 64) 0 ||| s.cur.t.finish.flags
        ∧ ∀ y, s.ctx? s.cur.ctxid.toNat = some y → y.vint = s.cur.t.vint →
            ∃ z, t.ctx? s.cur.ctxid.toNat = some z ∧ z.H = y.H + s.cur.t.w.toNat))

/-- `cordon` makes the idle cores of the group that the context has its followers, lane by lane, each with one unit of the weight,
with copies of s1 to s31 but for s[d], p1 to p7, RMODE, VTT, SCALEB, TVEC and the priority, and with v0 to v31 and FLAGS 0; that the live
generator descriptors are copied too is the model's choice (log entry 56);
`uncordon` ends the followers and dissolves the cordon; `qend` ends the quantum of a deterministic region. -/
def Obligations.CordonWords : Prop :=
  (∀ (s : State) (d k : BitVec 5), Ready (.cordon d k) s → Settled s → s.cur.leader = none → s.cur.members = [] →
    let fs := s.followers s.ev.core (k.toNat - 1)
    (fs.length < s.cur.t.w.toNat ∨ fs = []) → ∃ t, Retires (.cordon d k) s t ∧ SameFlags s t ∧ SameSpecials s.cur t.cur
      ∧ SameMem s t [] ∧ Writes s t [(.s, d.toNat, BitVec.ofNat 64 (fs.length + 1))] ∧ t.cur.members = fs
      ∧ t.cur.cordsz.toNat = fs.length + 1 ∧ t.cur.lane = 0 ∧ t.cur.t.w.toNat + fs.length = s.cur.t.w.toNat
      ∧ (∀ j (hj : j < fs.length), let c := t.coreAt fs[j]; c.leader = some s.ev.core ∧ c.lane.toNat = j + 1
          ∧ c.cordsz = t.cur.cordsz ∧ c.run = .running ∧ c.pl = 0 ∧ c.t.w = 1 ∧ c.t.fmask = 0 ∧ c.t.h = Vector.replicate 16 none
          ∧ c.t.flags = 0 ∧ c.t.rmode = s.cur.t.rmode ∧ c.t.vtt = s.cur.t.vtt ∧ c.tvec = s.cur.tvec ∧ c.t.prio = s.cur.t.prio
          ∧ c.t.p = s.cur.t.finish.p ∧ c.t.scaleb = s.cur.t.scaleb ∧ c.t.v = Vector.replicate 32 0 ∧ c.t.gens = s.cur.t.gens
          ∧ (∀ k, k < 32 → (k ≠ d.toNat ∨ k = 0) → c.t.file .s k = s.cur.t.finish.file .s k)
          ∧ (d ≠ 0 → c.t.file .s d.toNat = BitVec.ofNat 512 (fs.length + 1)))
      ∧ ∀ n, n ≠ s.ev.core → n ∉ fs → t.coreAt n = s.coreAt n)
  ∧ (∀ s : State, Ready .uncordon s →
    (s.cur.members = [] → exec .uncordon s = .next s.retire ∧ Retires .uncordon s s.retire)
    ∧ (s.ev.core ∉ s.cur.members → s.cur.members ≠ [] → (∀ m ∈ s.cur.members, (s.coreAt m).replay = []
        ∧ (s.coreAt m).uncleared = false ∧ (s.coreAt m).unacked = 0 ∧ (s.coreAt m).t.div = none ∧ (s.coreAt m).lane ≠ 0) →
        Mapped s (s.cur.members.flatMap s.endAreas) → ∃ t, Retires .uncordon s t
          ∧ Writes s t [] ∧ SameFlags s t ∧ SameSpecials s.cur t.cur ∧ t.cur.members = [] ∧ t.cur.cordsz = 1
          ∧ ∀ m ∈ s.cur.members, (t.coreAt m).run = .idle ∧ (t.coreAt m).t.w = 0 ∧ (t.coreAt m).leader = none))
  ∧ ∀ s : State, Ready .qend s → ∃ t, Retires .qend s t ∧ Writes s t [] ∧ Plain s t
      ∧ t.cur.qended = (s.isDet s.cur || s.cur.qended)

/-- `sbind` reads a shape record and binds its stream; a record out of its limits, or a register that is bound, traps STREAM. A
pop by a vector word takes the strip fetched next, waits where there is none, and traps where the stream writes or has ended. A word with a bound
destination keeps its result for the stream, with room for one store more, and traps where the stream reads or has no place left;
once visible, the result's store enters the order at the strip's address. `sfree` waits for pushed strips, ends the binding and
gives the position. -/
def Obligations.StreamWordsBindPopPushAndFree : Prop :=
  ∀ s : State,
    (∀ (n : BitVec 2) (a : BitVec 5) (r : BitVec 1) (bs : List Byte) (u : State), let i := Instr.sbind n a r
      let k := 28 + n.toNat
      let q : Stream := { record := s.rs a, shape := BitVec.ofNat 256 (ofBytes bs), write := decide (r = 1), pos := 0, depth := 0,
                          quiet := 0, waited := false, fetched := [], parked := none, tags := [], since := s.time }
      Ready i s → Idle s → s.retire.syncLoad (s.rs a) 32 32 = .ok bs u →
        (s.shapeOk q = true → s.cur.streamOf k = none → ∃ t, Retires i s t ∧ Writes s t [] ∧ Plain s t
          ∧ t.cur.streamOf k = some { q with depth := if r = 1 then 0 else q.dmin }
          ∧ ∀ m, m ≠ k → t.cur.streamOf m = s.cur.streamOf m)
        ∧ (s.shapeOk q = false ∨ (s.cur.streamOf k).isSome = true → Traps i s cStream (s.rs a)))
    ∧ (∀ (d : BitVec 5) (n : BitVec 2), let i := Instr.sfree d n
      let k := 28 + n.toNat
      Ready i s → (s.cur.streamOf k = none → ∃ t, Retires i s t ∧ Writes s t [(.s, d.toNat, 0)] ∧ Plain s t)
        ∧ ∀ q, s.cur.streamOf k = some q →
          ((∀ x ∈ s.cur.mem, x.tag ∉ q.tags) → s.cur.pending k = 0 → ∃ t, Retires i s t ∧ Writes s t [(.s, d.toNat, BitVec.ofNat 64 q.pos)] ∧ Plain s t
            ∧ t.cur.streamOf k = none ∧ ∀ m, m ≠ k → t.cur.streamOf m = s.cur.streamOf m)
          ∧ ((∃ x ∈ s.cur.mem, x.tag ∈ q.tags) ∨ 0 < s.cur.pending k → ∃ t, Waits i s t ∧ t.cur.t.streams = s.cur.t.streams))
    ∧ (∀ (i : Instr) (r : Nat) (q : Stream), streamWord s i → Ready i s → s.cur.popsOf i = [r] → s.cur.pushOf i = none →
      s.cur.streamOf r = some q →
        (q.write = true ∨ q.length ≤ q.pos → Traps i s cStream q.record)
        ∧ (q.write = false → q.pos < q.length → q.fetched = [] → ∃ t z, Waits i s t ∧ t.cur.streamOf r = some z ∧ z.pos = q.pos
            ∧ (q.waited = false → z.depth = min q.dmax (q.depth + 1)))
        ∧ (∀ e rest code, q.write = false → q.pos < q.length → q.fetched = e :: rest → e.trap = some code →
            Traps i s code (q.addr q.pos)))
    ∧ (∀ (d b : BitVec 5) (h : BitVec 4) (o : Ord) (c : Scope) (hint : Hint) (q : Stream) (e : Strip) (rest : List Strip),
      let i := Instr.vst d b h o c hint
      let a := s.rs b
      let v := decodeWindow (s.fmtAt (q.addr q.pos)) e.bytes
      let y := encodeWindow (s.fmtAt a) v.1 (s.cur.t.rmode.toNat % 8) (s.cur.t.vtt.getLsbD 32) s.cur.srWord
      Ready i s → s.cur.popsOf i = [d.toNat] → s.cur.streamOf d.toNat = some q → q.write = false → q.pos < q.length →
        q.fetched = e :: rest → e.trap = none → Goes s .vstore a (storedSize (s.fmtAt a)) →
        (∀ g off, s.window a ≠ .gen g off) → s.srFault y.draws = none → RoomForStore s →
          ∃ t x z, Retires i s t ∧ OnlyRegs s t [] ∧ t.cur.mem = s.cur.mem ++ [x] ∧ x.kind = .store ∧ x.addr = a ∧ x.data = y.bytes
            ∧ t.cur.streamOf d.toNat = some z ∧ z.pos = q.pos + 1 ∧ z.fetched = rest
            ∧ t.cur.ternbad = s.cur.ternbad + BitVec.ofNat 32 v.2)
    ∧ (∀ (i : Instr) (d : BitVec 5) (p : BitVec 3) (t : BitVec 2) (lat : Nat) (f : Nat → LaneRes) (q : Stream),
      vecSpec s i = some (d, p, t, lat, f) → Ready i s → s.cur.popsOf i = [] → s.cur.pushOf i = some d.toNat →
      s.cur.streamOf d.toNat = some q →
        (q.write = false ∨ q.length ≤ q.pos + s.cur.pending d.toNat → Traps i s cStream q.record)
        ∧ (q.write = true → q.pos + s.cur.pending d.toNat < q.length →
          (¬ RoomForStore s → ∃ u, Waits i s u)
          ∧ (RoomForStore s → ∃ u y, Retires i s u ∧ OnlyCur s u ∧ OnlyRegs s u [] ∧ SameSpecials s.cur u.cur
            ∧ SameThread s.cur.t u.cur.t ∧ u.cur.mem = s.cur.mem
            ∧ FlagsIn s u ((List.range (s.vn t)).foldl (fun x k => if s.vp p k then x ||| (f k).2 else x) 0) lat
            ∧ u.cur.pushes = s.cur.pushes ++ [{ reg := d.toNat, val := y, issued := s.cur.iss.nom,
                                                visible := some (s.cur.iss.nom + lat), tag := 0, pc := s.cur.iss.pc,
                                                before := s.cur.iss.before, instret := s.cur.iss.instret }]
            ∧ ∀ k, k < s.vn t → laneAt (s.vw t) y k = if s.vp p k then (f k).1 % 2 ^ (8 * s.vw t)
                else if slotZero s.cur t then 0 else s.vl t d k)))
    ∧ (∀ (i : Instr) (r : Nat) (q : Stream), streamWord s i → Ready i s → r ∈ s.cur.popsOf i → s.cur.pushOf i = some r →
      s.cur.streamOf r = some q → Traps i s cStream q.record)
    ∧ ∀ (n : Nat) (p : Push) (q : Stream), let s0 := s.atPush n p
      let a := q.addr q.pos
      let e := s0.encodeAt a p.val
      (s.coreAt n).streamOf p.reg = some q → p ∈ (s.coreAt n).pushes →
      s0.accCheck s0.cur .vstore a (storedSize (s0.fmtAt a)) = none → (∀ g off, s0.window a ≠ .gen g off) →
      s0.srFault e.draws = none → RoomForStore s0 →
        ∃ t x z, s.landPush n p = some t ∧ x ∈ (t.coreAt n).mem ∧ x.kind = .store ∧ x.addr = a
          ∧ x.bytes = s.spLocs a (storedSize (s.fmtAt a)) ++ s0.scaleLocs s0.cur a ∧ x.data = e.bytes ∧ x.handle = none ∧ x.ord = .plain
          ∧ x.scope = .dev ∧ x.hint = .stream ∧ x.performed = false ∧ x.pc = p.pc
          ∧ (t.coreAt n).mem.map (·.tag) = (s.coreAt n).mem.map (·.tag) ++ [x.tag]
          ∧ (t.coreAt n).streamOf p.reg = some z ∧ z.pos = q.pos + 1 ∧ z.tags = q.tags ++ [x.tag]
          ∧ (t.coreAt n).t.s = (s.coreAt n).t.s ∧ (t.coreAt n).t.v = (s.coreAt n).t.v

/-- `vsave` writes its block, holds in it what the replay queue and the streams held, empties both, and gives the bound streams and
the number of held words; it waits only for what the order of its own stores waits for. `vrest` puts that back once, in the same
context: the held lanes are issued again, behind the core's own held words and under new names (log entry 56), and the streams are bound
at their positions; it answers 6 for any other block. That a block is known by all its 1,024 bytes is the model's choice (log entry 19). -/
def Obligations.VectorStateIsSavedAndRestored : Prop :=
  ∀ (s : State) (d a : BitVec 5), s.cur.uncleared = false →
    (let i := Instr.vsave d a
     let id := s.vblocks.length
     Ready i s → s.isDet s.cur = false →
      (s.gated.readyToStore (s.rs a) 1024 = false → ∃ t, Waits i s t)
      ∧ ∀ u, s.gated.readyToStore (s.rs a) 1024 = true →
        s.gated.storeLines (s.rs a) (blockBytes s.cur.ctxid id) 16 = .ok u → ∃ t, Retires i s t ∧ SameFlags s t
        ∧ t.cur.mem = s.cur.mem ∧ SameSpecials s.cur t.cur ∧ SameOthers s t ∧ SameMem u t []
        ∧ ((∀ k ∈ s.spLocs (s.rs a) 1024, isDirect k = true) → SameMem s t ((s.spLocs (s.rs a) 1024).map s.directKey))
        ∧ Writes s t [(.s, d.toNat, BitVec.ofNat 64 (16 * ((List.range 4).map (fun k =>
            if (s.cur.streamOf (28 + k)).isSome then 2 ^ k else 0)).sum + s.cur.replay.length))]
        ∧ t.cur.replay = [] ∧ (∀ k, t.cur.streamOf k = none)
        ∧ FMap.get? t.vblocks id = some { ctx := s.cur.ctxid, held := s.cur.replay, streams := s.cur.t.streams, restored := false,
                                          by_ := (0, 0) })
    ∧ (let i := Instr.vrest d a
       ∀ bs u, Ready i s → s.cur.mem.all Access.isJoin = true → s.retire.loadLines (s.rs a) 16 = .ok (bs, u) →
        let found := s.vblocks.find? (fun e => decide (blockBytes e.2.ctx e.1 = bs))
        (found = none → Answers i s d 6)
        ∧ ∀ id b, found = some (id, b) →
          (b.restored = true ∨ b.ctx ≠ s.cur.ctxid → Answers i s d 6)
          ∧ (b.restored = false → b.ctx = s.cur.ctxid → ∃ t, Retires i s t ∧ SameFlags s t ∧ SameSpecials s.cur t.cur
              ∧ SameOthers s t ∧ SameMem s t [] ∧ t.cur.replay = []
              ∧ (∃ xs, t.cur.mem = s.cur.mem ++ xs ∧ (∀ x ∈ xs, s.cur.nextTag ≤ x.tag ∧ x.tag < t.cur.nextTag ∧ x.pc = s.cur.iss.pc)
                ∧ xs.map (fun x => (x.kind, x.form, x.addr, x.bytes, x.data)) = ((s.cur.replay ++ b.held).flatMap (·.lanes)).map
                    (fun x => (x.kind, x.form, x.addr, x.bytes, x.data)))
              ∧ (d ≠ 0 → ResultIn s t .s d.toNat 0 0) ∧ (s.cur.replay ++ b.held = [] → Writes s t [(.s, d.toNat, 0)])
              ∧ FMap.get? t.vblocks id = some { b with restored := true, by_ := (s.ev.core, s.cur.iss.instret) }
              ∧ ∀ k, k < 4 → match b.streams.toList[k]? with
                | some (some q) => ∃ z, t.cur.streamOf (28 + k) = some z ∧ z.record = q.record ∧ z.shape = q.shape ∧ z.write = q.write
                    ∧ z.pos = q.pos ∧ z.depth = (if q.write then 0 else q.dmin) ∧ z.fetched = []
                | _ => t.cur.streamOf (28 + k) = none))

/-- `copy`, `copys` and `copyx` queue a command with the descriptor, the level, the context and the generators of the word and one
borrowed unit, and wait while two are queued; an address of a descriptor that its checks refuse traps. `ttpost` makes a pending future of
the task and gives its cell, by the model's choice the lowest free one (log entry 56), or p7 = 0 where none is free; the task keeps the
generator descriptors of its word (log entry 29), and the word parks, waits or traps where the heap cannot be reached (R181). -/
def Obligations.EngineWordsQueueTheirCommands : Prop :=
  (∀ (s : State) (d a b : BitVec 5) (h : BitVec 4), let i := Instr.copy d a b h
    Ready i s → Settled s →
      (2 ≤ s.cur.copyq.length → ∃ t, Waits i s t ∧ t.cur.copyq = s.cur.copyq)
      ∧ (s.cur.copyq.length < 2 → s.cur.ctxid = 0 ∨ CanTake s 1 → ∃ t k, Retires i s t ∧ Writes s t [] ∧ Plain s t ∧ Borrows s t
        ∧ t.cur.copyq = s.cur.copyq ++ [k] ∧ Queued s k none (BitVec.ofNat 8 ((s.rs b).toNat / 2 ^ 56)) h
        ∧ k.src = (s.rs a).toNat ∧ k.dst = (s.rs d).toNat ∧ k.row = (s.rs b).toNat % 2 ^ 32 ∧ k.ndim = 1 ∧ k.siga = 0))
  ∧ (∀ (s : State) (i : Instr) (a b : BitVec 5) (h : BitVec 4) (comb : Option (BitVec 1)), copySpec i = some (a, b, h, comb) →
    Ready i s → Settled s → let addr := s.rs a
      (∀ code, s.retire.accCheck s.retire.cur .load addr 64 = some code → Traps i s code addr)
      ∧ ∀ lo hi v u, s.retire.syncLoad addr 64 64 = .ok lo v → v.syncLoad (addr + 64) 64 64 = .ok hi u →
        (2 ≤ s.cur.copyq.length → ∃ t, Waits i s t ∧ t.cur.copyq = s.cur.copyq)
        ∧ (s.cur.copyq.length < 2 → s.cur.ctxid = 0 ∨ CanTake s 1 → ∃ t k, Retires i s t ∧ Writes s t [] ∧ Plain s t ∧ Borrows s t
          ∧ t.cur.copyq = s.cur.copyq ++ [k] ∧ Queued s k comb (BitVec.ofNat 8 ((s.rs b).toNat / 2 ^ 56)) h
          ∧ k.desc = BitVec.ofNat 1024 (ofBytes (lo ++ hi))))
  ∧ ∀ (s : State) (d a b : BitVec 5) (h : BitVec 4) (lo hi : List Byte) (v u : State) (x : Ctx), let i := Instr.ttpost d a b h
    let addr := s.rs a
    let rec_ : BitVec 1024 := BitVec.ofNat 1024 (ofBytes (lo ++ hi))
    let deps := [descAt rec_ 0x48 8, descAt rec_ 0x50 8].filter (· ≠ 0)
    Ready i s → Settled s → s.gated.syncLoad addr 64 128 = .ok lo v → v.syncLoad (addr + 64) 64 64 = .ok hi u →
      s.ctxOf s.cur = some x → (∀ f ∈ deps, x.isCell f = true ∧ u.futState f ≠ 0) →
        let areas := u.heapArea x :: deps.map (fun f => (f, 32))
        HeldUpAt i s u areas ∧ (Reached u areas → (u.freeCell x = none ∨ 256 ≤ (s.tasks (s.ev.core / 64)).length → ∃ t, Retires i s t ∧ Plain s t ∧ Writes s t [p7Of false]
          ∧ t.cur.t.w = s.cur.t.w ∧ t.tasks (s.ev.core / 64) = s.tasks (s.ev.core / 64))
        ∧ ∀ cell, u.freeCell x = some cell → (s.tasks (s.ev.core / 64)).length < 256 → CanTake s 1 →
          ∃ t k, Retires i s t ∧ Steady s t ∧ Writes s t [(.s, d.toNat, BitVec.ofNat 64 cell), p7Of true]
            ∧ t.cur.t.w.toNat + 1 = s.cur.t.w.toNat ∧ t.cur.t.fmask = s.cur.t.fmask ||| regMark d.toNat
            ∧ t.tasks (s.ev.core / 64) = s.tasks (s.ev.core / 64) ++ [k] ∧ k.record = rec_ ∧ k.ta.toNat = (s.rs b).toNat % 2 ^ 32
            ∧ k.tb.toNat = (s.rs b).toNat / 2 ^ 32 ∧ k.poster = s.ev.core ∧ k.cell = BitVec.ofNat 64 cell ∧ k.ctx = s.cur.ctxid.toNat
            ∧ k.handle = s.handle h ∧ k.gens = s.cur.t.gens)

/-- `caskopen` opens the casks of its mask where every context is at rest and within the issuer's authority; `caskseal` seals them once no
accepted store of theirs is left, and until then waits and refuses others. A mask of an absent cask traps UNIT_ABSENT. `pref` keeps
the line of its address with its hint, in L2 for a cask's, and drops every fault but UNIT_ABSENT. -/
def Obligations.CaskWordsAndPrefetch : Prop :=
  ∀ s : State,
    (∀ (i : Instr) (m : BitVec 2), i = .caskopen m ∨ i = .caskseal m → Ready i s →
      (s.hasCask = false → Traps i s cUnitAbsent 1)
      ∧ (s.hasCask = true → m.getLsbD 1 = true → s.die1 = false → Traps i s cUnitAbsent 0))
    ∧ (∀ m : BitVec 2, s.hasCask = true → (m.getLsbD 1 = true → s.die1 = true) → s.cur.uncleared = false →
      (Ready (.caskopen m) s → ∃ t, Retires (.caskopen m) s t ∧ Plain s t
        ∧ (let ok := s.ctxs.all (fun e => s.cur.authority e.2 && e.2.atRest)
           Writes s t [p7Of ok] ∧ t.caskOpen = if ok then s.caskOpen ||| m else s.caskOpen))
      ∧ (∀ n, Ready (.caskseal m) s → s.cur.txn = .none ∧ n = (if s.caskOpen &&& m = m then 1 else 0) ∨ s.cur.txn = .answered n →
        ((∀ e ∈ s.cores, ∀ x ∈ e.2.mem, ∀ die, x.caskDie s = some die → m.getLsbD die = false) →
          ∃ t, Retires (.caskseal m) s t ∧ Plain s t ∧ t.caskOpen = s.caskOpen &&& ~~~m
            ∧ t.caskSealing &&& m = 0 ∧ t.cur.txn = .none ∧ Writes s t [p7Of (decide (n = 1))])
        ∧ ((∃ k, ∃ x ∈ (s.coreAt k).mem, ∃ die, x.caskDie s = some die ∧ m.getLsbD die = true) →
          ∃ t, Waits (.caskseal m) s t ∧ t.caskOpen = s.caskOpen &&& ~~~m ∧ t.cur.txn = .answered n
            ∧ t.caskSealing = s.caskSealing ||| (s.caskOpen &&& m))))
    ∧ ∀ (b : BitVec 5) (h : BitVec 4) (o : Ord) (c : Scope) (n : Hint), let i := Instr.pref b h o c n
      let a := s.rs b
      Ready i s →
        (s.accCheck s.cur .load a 1 = some cUnitAbsent
            ∨ (s.accCheck s.cur .load a 1 = none ∧ s.window a = .paged ∧ s.look a.toNat = .stop cUnitAbsent) →
          Traps i s cUnitAbsent a)
        ∧ (s.accCheck s.cur .load a 1 ≠ some cUnitAbsent → ¬ (s.window a = .paged ∧ s.look a.toNat = .stop cUnitAbsent) →
          ∃ t, Retires i s t ∧ Steady s t ∧ Writes s t [] ∧ (n ≠ .bypass → SameMem s t [])
            ∧ (s.accCheck s.cur .load a 1 ≠ none → t = s.retire)
            ∧ ∀ l cached, s.accCheck s.cur .load a 1 = none → s.look a.toNat = .line l cached → n ≠ .bypass →
              (s.window a = .paged → FMap.get? t.cache (a.toNat / 64) = some { l with hint := n, l1 := l.l1.orElse (fun _ => s.l1For s.cur a) })
              ∧ ∀ die off, s.window a = .cask die off → FMap.get? t.cache (a.toNat / 64) = some { l with hint := n })

/-- `waita` issues its access and waits; it goes on with the value that differed. `genset` traps where its checks refuse its address;
it stores and installs the descriptor there, or says why it does not. `migr` answers why its thread stays, or sends the thread to the
core that it names, where it resumes at the next word; that the live generator descriptors go with it is the model's choice (log entry
52). -/
def Obligations.WaitaGensetAndMigr : Prop :=
  (∀ (s : State) (d b : BitVec 5) (h : BitVec 4) (o : Ord) (c : Scope) (n : Hint), let i := Instr.waita d b h o c n
    Ready i s →
      (∀ v, s.cur.txn = .waited v → ∃ t, Retires i s t ∧ Writes s t [(.s, d.toNat, v)] ∧ Plain s t ∧ t.cur.txn = .none
        ∧ t.cur.mem = s.cur.mem)
      ∧ (∀ k b, s.cur.txn = .waita k b → ∃ t, Waits i s t ∧ Plain s t ∧ t.cur.mem = s.cur.mem)
      ∧ (s.cur.txn = .none →
        (∀ code, s.accCheck s.cur .waita (s.rs b) 8 = some code → Traps i s code (s.rs b))
        ∧ (s.accCheck s.cur .waita (s.rs b) 8 = none → ∃ t x, Waits i s t ∧ Plain s t ∧ t.cur.mem = s.cur.mem ++ [x]
          ∧ x.kind = .waita ∧ Fresh s x (s.rs b) (s.spLocs (s.rs b) 8) h o c n ∧ x.operand = s.rs d
          ∧ t.cur.txn = .waita x.tag false)))
  ∧ (∀ (s : State) (d a : BitVec 5) (g : BitVec 3), let i := Instr.genset d a g
    Ready i s → Settled s → Checked i s .load (s.rs a) 64)
  ∧ (∀ (s : State) (d a : BitVec 5) (g : BitVec 3) (bs : List Byte) (u : State), let i := Instr.genset d a g
    let desc : BitVec 512 := BitVec.ofNat 512 (ofBytes bs)
    Ready i s → Settled s → s.retire.syncLoad (s.rs a) 64 64 = .ok bs u →
      (s.ctxOf s.cur = none → Answers i s d 2)
      ∧ ∀ x, s.ctxOf s.cur = some x →
        (genValid desc = false → Answers i s d 1)
        ∧ (genValid desc = true → x.rcb.genblk = 0 → ∃ t, Acts i s t d 3 ∧ SameOthers s t ∧ SameMem s t []
            ∧ t.cur.t.gens = s.cur.t.gens.set g.toNat desc g.isLt)
        ∧ (∀ l v, genValid desc = true → x.rcb.genblk ≠ 0 →
            u.syncStore (x.rcb.genblk + BitVec.ofNat 64 (64 * g.toNat)) bs 64 = .ok l v → ∃ t, Acts i s t d 0 ∧ SameOthers s t
            ∧ SameMem v t [] ∧ (let ks := s.spLocs (x.rcb.genblk + BitVec.ofNat 64 (64 * g.toNat)) bs.length
              (∀ k ∈ ks, isDirect k = true) → SameMem s t (ks.map s.directKey))
            ∧ t.cur.t.gens = s.cur.t.gens.set g.toNat desc g.isLt))
  ∧ ∀ (s : State) (d a : BitVec 5) (m : BitVec 1), let i := Instr.migr d a m
    Ready i s → s.cur.uncleared = false → s.cur.unacked = 0 → s.cur.t.div = none →
      (∀ st, s.retire.migrTarget m (s.rs a) = .error st → Answers i s d st)
      ∧ ∀ n, s.retire.migrTarget m (s.rs a) = .ok n → ∃ t th p marks, BecomesIdle i s t ∧ t.net = s.net ++ p :: marks
        ∧ (s.cur.marked = false → marks = []) ∧ t.cur.fwd = s.cur.fwd ++ [(n, s.time + 4000, s.cur.t.run)] ∧ p.dest = .core n ∧ p.ctx = s.cur.ctxid.toNat ∧ p.body = .migrate th (some d.toNat) ∧ th.pc = s.cur.iss.next ∧ th.nom = 0
        ∧ th.s = s.cur.t.finish.s ∧ th.v = s.cur.t.finish.v ∧ th.p = s.cur.t.finish.p ∧ th.flags = s.cur.t.finish.flags
        ∧ SameThread s.cur.t th

/-- `idle` goes on once an asynchronous cause is pending, and sleeps until then; `plbw` writes one entry of the protection buffer, and
traps BAD_ADDRESS for a range beyond the address space; `plbinv` clears the entries that its mode selects and counts, by the model's
choice, those of them that were valid (log entry 52). -/
def Obligations.IdleAndProtectionWords : Prop :=
  ∀ s : State, s.cur.uncleared = false →
    (Ready .idle s →
      (s.cur.preempt = true ∨ s.cur.events ≠ [] → ∃ t, Retires .idle s t ∧ t.cur.run = .waking ∧ t.cur.idleAt = some s.cur.iss.next ∧ OnlyCur s t ∧ OnlyRegs s t []
        ∧ SameFlags s t ∧ SameSpecials s.cur t.cur)
      ∧ (s.cur.preempt = false → s.cur.events = [] → ∃ t, Waits .idle s t ∧ t.cur.run = .asleep ∧ OnlyCur s t))
    ∧ (∀ d a b : BitVec 5, let i := Instr.plbw d a b
      let base := s.rs a
      let pages := (s.rs b).toNat / 2 ^ 32
      Ready i s →
        (2 ^ 56 ≤ base.toNat ∨ 2 ^ 56 < base.toNat / 8192 * 8192 + pages * 8192 → Traps i s cBadAddress base)
        ∧ (base.toNat < 2 ^ 56 → base.toNat / 8192 * 8192 + pages * 8192 ≤ 2 ^ 56 → ∃ t e, Retires i s t ∧ e.base.toNat = base.toNat
            ∧ e.pages.toNat = pages ∧ e.domain.toNat = (s.rs b).toNat / 2 ^ 16 % 4096 ∧ e.rights.toNat = (s.rs b).toNat % 64
            ∧ t = s.setCur { s.cur.retire with plb := s.cur.plb.setIfInBounds ((s.rs d).toNat % 64) e }))
    ∧ ∀ (d a : BitVec 5) (m : BitVec 2), let i := Instr.plbinv d a m
      let gone (k : Nat) := plbGone m.toNat (s.rs a) k (s.cur.plb.toList.getD k PlbEntry.reset)
      Ready i s → ∃ t, Retires i s t ∧ OnlyCur s t ∧ SameFlags s t ∧ OnlyRegs s t (if d = 0 then [] else [(.s, d.toNat)])
        ∧ (d ≠ 0 → ResultIn s t .s d.toNat (BitVec.ofNat 512 ((List.range 64).filter gone).length) 1)
        ∧ SameSpecials { s.cur with plb := t.cur.plb } t.cur
        ∧ ∀ k, k < 64 → t.cur.plb.toList.getD k PlbEntry.reset
            = if gone k then PlbEntry.reset else s.cur.plb.toList.getD k PlbEntry.reset

/-- `preempt`, `wvint` and `ctxsave` answer 2 for a context that is not live and 3 for one beyond the issuer's authority. `preempt` sets
or withdraws the yield request and tells every core of the context; `wvint` writes off a stopped context's weight with a new vintage and
raises QUIESCENT; `ctxsave` stores a quiescent context's block, whose lines go on to memory (log entry 36), and touches it for no other; `ctxload` makes a
saved context live again from its block, and says why it does not. -/
def Obligations.ContextWords : Prop :=
  ∀ (s : State) (d a : BitVec 5), s.cur.uncleared = false →
    (∀ m : BitVec 1, let i := Instr.preempt d a m
      let id := (s.rs a).toNat % 2 ^ 32
      Ready i s → StatusChecked i s d id
        ∧ ∀ x, Governs s id x →
          (decide (m = 0) = x.yreq.isSome → Answers i s d 4)
          ∧ (decide (m = 0) ≠ x.yreq.isSome → ∃ t y, Acts i s t d 0 ∧ SameOthers s t ∧ SameMem s t [] ∧ CtxsBut s t id
              ∧ t.ctx? id = some y ∧ y.yreq = (if m = 0 then some s.time else none)
              ∧ t.net = s.net ++ x.cores.map (fun n => { src := x.home, dest := .core n, ctx := id, body := .yreq (decide (m = 0)) })))
    ∧ (let i := Instr.wvint d
       let id := (s.rs d).toNat % 2 ^ 32
       Ready i s → StatusChecked i s d id
        ∧ ∀ x, Governs s id x →
          (x.yreq = none ∨ s.retire.someRuns id = true → Answers i s d 5)
          ∧ (x.yreq ≠ none → s.retire.someRuns id = false → ∃ t y, Acts i s t d 0 ∧ SameMem s t [] ∧ CtxsBut s t id
              ∧ t.ctx? id = some y ∧ y.vint = x.vint + 1 ∧ y.H = x.total
              ∧ ((∃ n, cQuiescent ∈ (t.coreAt n).events.map (·.1)) ∨ cQuiescent ∈ y.events)))
    ∧ (let i := Instr.ctxsave d a
       let id := (s.rs d).toNat % 2 ^ 32
       let addr := s.rs a
       Ready i s → s.cur.mem.all Access.isJoin = true →
        (s.absentUnit addr = true → Traps i s cUnitAbsent addr)
        ∧ (s.absentUnit addr = false → StatusChecked i s d id
          ∧ ∀ x, Governs s id x →
            (x.H ≠ x.total → Answers i s d 1)
            ∧ (∀ code, x.H = x.total → s.accCheck s.cur .store addr 256 = some code → Traps i s code addr)
            ∧ ∀ u, x.H = x.total → s.accCheck s.cur .store addr 256 = none → s.retire.storeLines addr (saveBlock id x) 4 = .ok u →
              ∃ t, Acts i s t d 0 ∧ SameOthers s t ∧ SameMem u t (u.homeBytes addr 4)
                ∧ ((∀ k ∈ s.spLocs addr 256, isDirect k = true) → SameMem s t ((s.spLocs addr 256).map s.directKey ++ u.homeBytes addr 4)) ∧ CtxsBut s t id
                ∧ t.ctx? id = some { x with saved := true, block := addr }))
    ∧ (let i := Instr.ctxload d a
       let home := (s.rs d).toNat % 4096
       let addr := s.rs a
       ∀ bs u, Ready i s → s.cur.mem.all Access.isJoin = true → s.retire.loadBlock addr 256 4 = .ok (bs, u) →
        let id := fieldAt bs 0 4
        (fieldAt bs 7 1 ≠ 1 → Answers i s d 6)
        ∧ (fieldAt bs 7 1 = 1 → s.ctx? id = none → Answers i s d 3)
        ∧ ∀ x, fieldAt bs 7 1 = 1 → s.ctx? id = some x →
          (x.saved = false → Answers i s d 4)
          ∧ (x.saved = true → home ∉ x.cores → Answers i s d 3)
          ∧ ∀ chain v, x.saved = true → home ∈ x.cores →
            u.loadChain (BitVec.ofNat 64 (fieldAt bs 0x10 8)) [] (2 ^ 48) = .ok (chain, v) →
            (∀ w, v.loadPlace (resolveRcb chain).place = .ok (none, w) → Answers i s d 11)
            ∧ ∀ w devs l z, v.loadPlace (resolveRcb chain).place = .ok (some devs, w) → w.syncStore (addr + 7) [2] 1 = .ok l z →
              x.marks = [] → s.ev.core ∉ x.cores →
              ∃ t y, Acts i s t d (BitVec.ofNat 64 (id * 2 ^ 32)) ∧ CtxsBut s t id ∧ t.ctx? id = some y ∧ y.saved = false
                ∧ y.cores = x.cores ∧ y.home = home ∧ y.H = fieldAt bs 8 4 ∧ y.vint.toNat = fieldAt bs 4 2
                ∧ y.rcbAddr.toNat = fieldAt bs 0x10 8 ∧ y.freeHead.toNat = fieldAt bs 0x70 8 ∧ y.yreq = none ∧ y.seq = 0)

/-- `errinj` arms its error at the core that it names, or makes a line uncorrectable, or says ALREADY, and traps UNIT_ABSENT for an absent
unit or memory; beyond the issuer's authority it answers 3, and so it does, by the model's choice, for an address that maps to no memory
(log entry 37). `kload` loads an empty key slot, `kzero` empties one with its cached lines, `linkkey` loads the key slot of a link that is
not live; that the slot is live at once, with a count of 0, is the model's choice (log entry 38). -/
def Obligations.ErrorAndKeyWords : Prop :=
  ∀ (s : State) (d a : BitVec 5), s.cur.uncleared = false →
    (∀ k : BitVec 3, let i := Instr.errinj d a k
      let v := s.rs a
      let core := k = 0 ∨ k = 1 ∨ k = 4
      Ready i s →
        (core → s.ncores ≤ v.toNat → Traps i s cUnitAbsent v)
        ∧ (¬ core → s.namesAbsent v = true → Traps i s cUnitAbsent v)
        ∧ (core → v.toNat < s.ncores → ¬ MayInject s (s.ownerOfCore v.toNat) → Answers i s d 3)
        ∧ (¬ core → s.namesAbsent v = false → (s.presentAddr v = false ∨ ¬ MayInject s (s.ownerOfAddr v)) → Answers i s d 3)
        ∧ (MayInject s (s.ownerOfCore v.toNat) → core → v.toNat < s.ncores →
            (injArmed k.toNat (s.coreAt v.toNat) = true → Answers i s d 4)
            ∧ (injArmed k.toNat (s.coreAt v.toNat) = false → ∃ t, Acts i s t d 0 ∧ SameMem s t []
              ∧ injArmed k.toNat (t.coreAt v.toNat) = true ∧ (k = 1 → (t.coreAt v.toNat).injHold = some (s.rs d).toNat)
              ∧ ∀ n, n ≠ s.ev.core → n ≠ v.toNat → t.coreAt n = s.coreAt n))
        ∧ (MayInject s (s.ownerOfAddr v) → k = 2 → s.namesAbsent v = false → s.presentAddr v = true → (s.retire.poisonedAt v = true → Answers i s d 4)
            ∧ (s.retire.poisonedAt v = false → ∃ t, Acts i s t d 0 ∧ SameOthers s t ∧ SameMem s t []
              ∧ t.bad = (s.retire.poison v).bad ∧ t.cache = (s.retire.poison v).cache))
        ∧ (MayInject s (s.ownerOfAddr v) → ¬ core → k ≠ 2 → s.namesAbsent v = false → s.presentAddr v = true → Answers i s d 0))
    ∧ (∀ e : BitVec 6,
      (∀ bs u, Ready (.kload d a e) s → s.cur.mem.all Access.isJoin = true → s.retire.syncLoad (s.rs a) 64 64 = .ok bs u →
        (s.keyAt e.toNat ≠ none → Answers (.kload d a e) s d 4)
        ∧ (s.keyAt e.toNat = none → ∃ t, Acts (.kload d a e) s t d 0 ∧ SameOthers s t ∧ SameMem s t []
          ∧ t.keyAt e.toNat = some (BitVec.ofNat 512 (ofBytes bs)) ∧ ∀ n, n ≠ e.toNat → t.keyAt n = s.keyAt n))
      ∧ (Ready (.kzero d e) s →
        let mine := s.ctxs.any (fun x => x.2.rcb.modef.getLsbD 0 && decide (x.2.rcb.keyslot.toNat = e.toNat) && s.cur.authority x.2)
        (s.cur.pl = 1 → mine = false → Answers (.kzero d e) s d 3)
        ∧ (s.cur.pl ≠ 1 ∨ mine = true → ∃ t, Acts (.kzero d e) s t d 0 ∧ SameOthers s t ∧ SameMem s t [] ∧ t.keyAt e.toNat = none
          ∧ (∀ n, n ≠ e.toNat → t.keyAt n = s.keyAt n)
          ∧ ∀ x, x ∈ t.cache ↔ x ∈ s.cache ∧ s.lineSlot (x.1 * 64) x.2.pa ≠ some e.toNat)))
    ∧ ∀ (k : BitVec 5) bs u, let i := Instr.linkkey d a k
      let l := FMap.getD s.links k.toNat Link.reset
      Ready i s → s.cur.mem.all Access.isJoin = true → s.retire.syncLoad (s.rs a) 44 64 = .ok bs u →
        (l.marker = true → Answers i s d 10)
        ∧ (l.marker = false → ∃ t, Acts i s t d 0 ∧ SameOthers s t ∧ SameMem s t []
          ∧ (let m := FMap.getD t.links k.toNat Link.reset
             let key : Option (BitVec 352) := some (BitVec.ofNat 352 (ofBytes bs))
             m.liveB = !l.liveB ∧ m.marker = true ∧ m.count = 0 ∧ m.keydue = false ∧ m.holding = false
               ∧ m.keyA = (if l.liveB then key else l.keyA) ∧ m.keyB = (if l.liveB then l.keyB else key)))

/-- `scrub` begins on a range within the issuer's resources; `assign` makes a context live on free cores, with H at its total and vintage 1;
`release` ends a context at rest: its cores are idle without a context, and its resources are held. Their statuses say why they do nothing; of those of
`assign`, INUSE for CTXID 0 and for a live CTXID, and HELD after a reset that found a scrub, are log entry 38's. Where the frame pool of an
`assign` cannot be reached, it parks, waits or traps (R181). -/
def Obligations.ScrubAssignAndRelease : Prop :=
  ∀ (s : State) (d a b : BitVec 5), s.cur.uncleared = false →
    (∀ m : BitVec 1, let i := Instr.scrub d a b m
      let base := s.rs a
      let len := s.rs b
      let restart := s.cur.pl = 2 ∧ s.scrubPend.getLsbD 63 = true ∧ s.scrubPend.toNat % 2 ^ 56 = base.toNat % 2 ^ 56
        ∧ s.scrubEnd.toNat = (base.toNat + len.toNat) % 2 ^ 56 ∧ m = 0
      Ready i s →
        (∀ x, s.rangeAbsent base len = some x → Traps i s cUnitAbsent x)
        ∧ (s.rangeAbsent base len = none →
          (s.scrubRange base len = none → Answers i s d 11)
          ∧ ∀ page lo hi, s.scrubRange base len = some (page, lo, hi) →
            let l := s.myResources page
            (¬ restart → covered l lo hi (l.length + 1) = false → Answers i s d 3)
            ∧ (restart ∨ covered l lo hi (l.length + 1) = true →
              (s.scrubBusy = true → Answers i s d 10)
              ∧ (s.scrubBusy = false → ∃ t, Acts i s t d 0 ∧ SameOthers s t ∧ SameMem s t [] ∧ t.scrubBusy = true ∧ t.scrubErr = false
                ∧ t.scrubMode = m ∧ t.scrubCur.toNat = base.toNat % 2 ^ 56 ∧ t.scrubEnd.toNat = (base.toNat + len.toNat) % 2 ^ 56
                ∧ t.scrubPend = BitVec.ofNat 64 (2 ^ 63) ||| base))))
    ∧ (let i := Instr.assign d a b
       ∀ chain v rs w cores z devs u, Ready i s → s.cur.mem.all Access.isJoin = true →
        s.retire.loadChain (s.rs a) [] (2 ^ 48) = .ok (chain, v) → v.loadBlock (s.rs b) 64 1 = .ok (rs, w) →
        (if fieldAt rs 2 2 = 0 then w.loadCores (BitVec.ofNat 64 (fieldAt rs 0x18 8)) (fieldAt rs 0x20 2) = .ok (cores, z)
         else cores = (List.range (fieldAt rs 2 2)).map (fun k => fieldAt rs 0 2 + k) ∧ z = w) →
        let r := resolveRcb chain
        z.loadPlace r.place = .ok (devs, u) →
        let id := (chain.head?.map (fun c => c.ctxid.toNat)).getD 0
        let base := fieldAt rs 8 8; let npages := fieldAt rs 0x10 4
        let noAuth : Prop := s.cur.pl ≠ 2 ∧ ¬ (s.cur.supv = true ∧ s.cur.region ≠ 0 ∧ ∃ c ∈ chain, c.ctxid = s.cur.region)
        let badRange : Prop := r.bcores.toNat < cores.length ∨ r.bpages.toNat < npages ∨ r.bscr.toNat < 64 * cores.length
          ∨ (fieldAt rs 2 2 = 0 ∧ cores = []) ∨ ¬ cores.Nodup ∨ (∃ m ∈ cores, s.ncores ≤ m) ∨ devs = none ∨ r.nlog.toNat < 3
          ∨ 31 < r.nlog.toNat ∨ base % 2 ^ 21 ≠ 0 ∨ s.lcstate ≠ 2
        let inUse : Prop := id = 0 ∨ s.ctx? id ≠ none ∨ ∃ e ∈ s.ctxs, (∃ m ∈ cores, m ∈ e.2.cores)
          ∨ ∃ k, k < npages ∧ e.2.pageBase.toNat ≤ base + k * 2 ^ 21 ∧ base + k * 2 ^ 21 < e.2.pageBase.toNat + e.2.npages * 2 ^ 21
        let held : Prop := s.rescrub = true
          ∨ (∃ m ∈ cores, (∃ h ∈ s.held, h.page = false ∧ h.num = m) ∨ s.pendCovers false (m * 2 ^ 16) ((m + 1) * 2 ^ 16) = true)
          ∨ ∃ k, k < npages ∧ ((∃ h ∈ s.held, h.page = true ∧ h.num = base + k * 2 ^ 21)
              ∨ s.pendCovers true (base + k * 2 ^ 21) (base + (k + 1) * 2 ^ 21) = true)
        let noKey : Prop := r.modef.getLsbD 0 = true ∧ s.keyAt r.keyslot.toNat = none
        let pool := (List.range r.fpooln.toNat).map (fun k => (r.fpool.toNat + k * r.framesz.toNat, 8))
        (noAuth → Answers i s d 3) ∧ (¬ noAuth → badRange → Answers i s d 11) ∧ (¬ noAuth → ¬ badRange → inUse → Answers i s d 8)
        ∧ (¬ noAuth → ¬ badRange → ¬ inUse → held → Answers i s d 7)
        ∧ (¬ noAuth → ¬ badRange → ¬ inUse → ¬ held → noKey → Answers i s d 9)
        ∧ (¬ noAuth → ¬ badRange → ¬ inUse → ¬ held → ¬ noKey → HeldUpAt i s u pool
          ∧ (Reached u pool → s.ev.core ∉ cores → ∃ t x, Acts i s t d 0 ∧ CtxsBut s t id ∧ t.ctx? id = some x ∧ x.cores = cores
          ∧ x.home = cores.headD 0 ∧ x.H = 2 ^ r.nlog.toNat ∧ x.vint = 1 ∧ x.voidcnt = 0 ∧ x.saved = false ∧ x.rcb = r
          ∧ (∀ n ∈ cores, (t.coreAt n).run = .idle ∧ (t.coreAt n).pl = 0 ∧ (t.coreAt n).ctxid.toNat = id
              ∧ (t.coreAt n).region.toNat = id ∧ (t.coreAt n).t.w = 0)
          ∧ ∀ n, n ≠ s.ev.core → n ∉ cores → t.coreAt n = s.coreAt n)))
    ∧ (let i := Instr.release d
       let id := (s.rs d).toNat % 2 ^ 32
       Ready i s → StatusChecked i s d id
        ∧ ∀ x, Governs s id x →
          (x.saved = false → x.H ≠ x.total ∨ x.yreq = none → Answers i s d 1)
          ∧ (x.saved = true ∨ (x.H = x.total ∧ x.yreq ≠ none) →
            (x.rcb.modef.getLsbD 0 = true → s.keyAt x.rcb.keyslot.toNat ≠ none → Answers i s d 9)
            ∧ (x.rcb.modef.getLsbD 0 = false ∨ s.keyAt x.rcb.keyslot.toNat = none →
              let done : Prop := ∃ t, Acts i s t d 0 ∧ t.ctx? id = none
                ∧ ((∀ e ∈ s.queues, e.2.owner.toNat = id → e.2.head = e.2.tail) → CtxsBut s t id)
                ∧ (∀ n ∈ x.cores, (t.coreAt n).run = .idle ∧ (t.coreAt n).ctxid = 0 ∧ (t.coreAt n).t.s = Core.reset.t.s)
                ∧ (∀ n ∈ x.cores, ∃ e ∈ t.held, e.page = false ∧ e.num = n ∧ e.freeable = false)
                ∧ ∀ k, k < x.npages → ∃ e ∈ t.held, e.page = true ∧ e.num = x.pageBase.toNat + k * 2 ^ 21 ∧ e.freeable = false
              s.ev.core ∉ x.cores → (x.saved = false → done)
                ∧ (∀ l z, x.saved = true → s.cur.mem.all Access.isJoin = true → s.retire.syncStore (x.block + 7) [0] 1 = .ok l z →
                  done))))

/-- Asynchronous causes, illegal words and failing fetches enter the trap that the rules say, where the core is at user level and
clear; a yield request reaches its core, and takes back a pop request. -/
def Obligations.CausesBetweenSlotsAreTaken : Prop :=
  ∀ s : State, let pc := s.cur.t.pc
    (s.cur.preempt = true → Alone s → s.cur.run = .running → s.isDet s.cur = false → s.cur.txn = .none → s.cur.gpark = none →
      s.cur.mem = [] → s.cur.uncleared = false → ∃ t, exec .preemptTrap s = .next t ∧ Trapped s t cPreempt (s.cur.ctxid.setWidth 64) pc s.cur.tvec
        ∧ t.cur.preempt = false ∧ t.cur.tcause.getLsbD 22 = true)
    ∧ (∀ code id rest x, s.cur.run = .waking → s.cur.preempt = false → s.cur.events = (code, id) :: rest →
      (code = cQuiescent ∨ code = cWeightLost) → s.ctx? id.toNat = some x →
        ∃ t, exec .regionEventTrap s = .next t ∧ Trapped s t code (id.setWidth 64) pc x.rcb.quiesce ∧ t.cur.events = rest
          ∧ t.cur.tcause.getLsbD 22 = true)
    ∧ (∀ p rest on, First s p rest → p.dest = .core s.ev.core → p.body = .yreq on → p.ctx = s.cur.ctxid.toNat →
      ∃ t, exec .yieldRequestArrival s = .next t ∧ t.cur.yreq = on ∧ (s.cur.popReq = false → t.net = rest)
        ∧ (on = true → s.cur.popReq = true → t.cur.popReq = false
          ∧ t.net = rest ++ [{ src := s.ev.core, dest := .home p.ctx, ctx := p.ctx, body := .unpop }])
        ∧ t.cur.preempt = (on && decide (s.cur.run ≠ .idle)))
    ∧ (s.firmware = true → s.cur.canIssue = true → s.cur.uncleared = false → Alone s →
      (∀ b u word1 insn reason, s.fetch s.ev.core (pc &&& ~~~(7 : W64)) = .bundle b u →
        s.cur.illegalAt pc b = some (word1, insn, reason) → ∃ t, exec .illegalInstruction s = .next t
          ∧ Trapped s t cIllegal (illegalTval reason word1 insn) (wordPc pc b word1) s.cur.tvec)
      ∧ (∀ code, s.fetchCause s.ev.core = some code → code ∈ [cUnitAbsent, cBadAddress, cProtection, cEcc, cPageFault] →
          ∃ t, exec .fetchFault s = .next t ∧ Trapped s t code (faultTval code (pc &&& ~~~(7 : W64))) pc s.cur.tvec))

/-- Accesses are performed and answered as the rules say: a load's value reaches its register, no sooner than its fixed latency, a store
is accepted and then written, a join is performed, at system scope where its handle's scope is that one, an access homed elsewhere keeps
its answer until it returns, and an atomic of another device that has been sent is sent again 20 µs after it was, or ends INDETERMINATE.
The divider's result reaches its register; a sequencer gives the next ticket, and one of another device that does not answer makes the
access fault. That a store is accepted in one step, which writes nothing, and performed in a later one is the model's choice (log entry
47); that the outside says what becomes of a transmission is log entry 20's. -/
def Obligations.AccessesArePerformedAndAnswered : Prop :=
  ∀ s : State,
    (∀ d, s.cur.t.div = some d → d.due ≤ s.cycle → ∃ t, exec .divideResult s = .next t ∧ t.cur.t.div = none
      ∧ t.cur.t.flags = s.cur.t.flags ||| d.flags ∧ Arrives s t d.tag (d.val.setWidth 512))
    ∧ ∀ k x, Concerns s k x →
      (x.kind = .load → (x.form = .zext ∨ x.form = .sext) → (∀ b, s.cur.txn ≠ .waita x.tag b) →
        (∀ vals u, x.performed = false → s.isRemote s.ev.core x = false → s.mayPerform s.ev.core k = true → Performs s k x vals u →
          (x.due ≤ s.cycle → ∃ t, exec .memoryReply s = .next t ∧ t.memTags = dropAt s.memTags k ∧ t.mem = u.mem
            ∧ Arrives s t x.tag (loadValue x.form vals).1)
          ∧ (s.cycle < x.due → ∃ t, exec .memoryReply s = .next t ∧ t.mem = u.mem
            ∧ t.cur.mem = setAt s.cur.mem k { x with performed := true, result := vals }))
        ∧ (x.performed = true → x.due ≤ s.cycle → ∃ t, exec .memoryReply s = .next t ∧ t.memTags = dropAt s.memTags k
            ∧ Arrives s t x.tag (loadValue x.form x.result).1))
      ∧ (∀ vals u, x.kind = .waita → x.performed = false → s.isRemote s.ev.core x = false → s.mayPerform s.ev.core k = true →
          (s.cur.txn = .waita x.tag false) → Performs s k x vals u → ∃ t, exec .memoryReply s = .next t
            ∧ (BitVec.ofNat 64 (ofBytes vals) = x.operand → t.cur.txn = .waita x.tag true ∧ t.memTags = s.memTags)
            ∧ (BitVec.ofNat 64 (ofBytes vals) ≠ x.operand → x.due ≤ s.cycle → t.cur.txn = .waited (BitVec.ofNat 64 (ofBytes vals))
                ∧ t.memTags = dropAt s.memTags k))
      ∧ (x.kind = .join → s.joinDone s.ev.core k x = true → ∃ t, exec .storeAcknowledge s = .next t ∧ t.cur.mem = dropAt s.cur.mem k
          ∧ ∀ h, x.handle = some h → h.scope = .sys → NoOlderCopy t (fun w => w.under h.id = true))
      ∧ (x.kind = .store → x.performed = false →
        (∀ u, x.cleared = false → s.mayAccept s.ev.core k = true → (s.regOff? x.addr = none → Performs s k x [] u) →
          ∃ t, exec .storeAcknowledge s = .next t ∧ t.cur.mem = setAt s.cur.mem k { x with cleared := true } ∧ t.mem = s.mem)
        ∧ (∀ u, x.cleared = true → s.mayPerform s.ev.core k = true → s.isRemote s.ev.core x = false → Performs s k x [] u →
          ∃ t, exec .storeAcknowledge s = .next t ∧ t.cur.mem = dropAt s.cur.mem k ∧ t.mem = u.mem
            ∧ ((∀ l ∈ x.bytes, isDirect l = true) → x.bytes.Nodup → x.bytes.length = x.data.length →
                SameMem s t (x.bytes.map s.directKey)
                ∧ ∀ j (hj : j < x.bytes.length) (hd : j < x.data.length), Memory.read t.mem (s.directKey x.bytes[j]) = x.data[j])))
      ∧ (∀ vals u, x.performed = false → x.isJoin = false → s.isRemote s.ev.core x = true → (x.isStore = true → x.cleared = true) →
          s.mayPerform s.ev.core k = true → Performs s k x vals u → ∃ t, exec .remoteAccess s = .next t
            ∧ t.cur.mem = setAt s.cur.mem k { x with performed := true, result := vals } ∧ t.mem = u.mem)
      ∧ (∀ vals u, x.isAtomic = true → s.ev.ok = true → (∃ b ∈ x.bytes, spaceOf b = spVirt ∧ offOf b / 8192 ∈ s.moving) →
          ({ s with moving := [] } : State).mayPerform s.ev.core k = true → s.perform s.ev.core x (s.cur.mem.take k) = .done vals u →
          ∃ t, exec .atomicForward s = .next t ∧ t.memTags = dropAt s.memTags k ∧ t.mem = u.mem)
      ∧ (∀ op, x.kind = .atomic op →
        ((∃ fmt dev core off, s.window x.addr = .spad fmt dev core off ∧ dev ≠ s.devid) ∨ (s.lineDev x.addr.toNat).isSome = true) →
        x.since + 20000 ≤ s.time → (x.performed = true ∨ s.mayPerform s.ev.core k = true) →
        (s.ev.val ≠ 0 → x.losses < 2 → ∃ t, exec .atomicRetransmit s = .next t
          ∧ t.cur.mem = setAt s.cur.mem k { x with losses := x.losses + 1, since := s.time })
        ∧ (s.ev.val = 0 → x.performed = true → s.ev.ok = true → ∃ t, exec .atomicRetransmit s = .next t
          ∧ t.memTags = dropAt s.memTags k)
        ∧ ((s.ev.val ≠ 0 ∧ 2 ≤ x.losses) ∨ (s.ev.val = 0 ∧ (x.performed = false ∨ s.ev.ok = false)) →
          ∃ t, exec .atomicRetransmit s = .next t ∧ t.memTags = dropAt s.memTags k ∧ t.cur.tval = 1 ∧ Arrives s t (x.tag + 1) 0))
      ∧ (∀ h, x.handle = some h → x.ticket = none → (∀ id, x.kind ≠ .unhold id) →
          (∀ e ∈ s.cur.mem.take k, e.ticket ≠ none ∨ e.handle.map (·.id) ≠ some h.id) → let here := (h.id.extractLsb' 18 14).toNat = s.devid
          (here ∨ s.ev.ok = true → ∃ t, exec .handleTicket s = .next t
            ∧ t.cur.mem = setAt s.cur.mem k { x with ticket := some (s.seqr h.id).next, cleared := x.cleared || x.isJoin }
            ∧ t.seqr h.id = { s.seqr h.id with next := (s.seqr h.id).next + 1, opens := (s.seqr h.id).opens ++ [(s.seqr h.id).next] })
          ∧ (¬ here → s.ev.ok = false → (∀ e ∈ s.cur.mem.take k, e.cleared = true) → s.cur.pushes = [] → Alone s →
            ∃ t, exec .handleTicket s = .next t ∧ Trapped s t cBadAddress x.addr x.pc s.cur.tvec))

/-- Threads arrive, parks end, and the places that wait change as the rules say: a migrating thread goes on at its target, a park ends where
V has been set or with PAGE_FAULT at its limit, a `waita` wakes, a cask group enters and leaves its refresh, and an ECC word is
spoiled. That the live generator descriptors travel with the thread, with its other registers, is the model's choice (log entry 52), and
so is that the outside says when a parked walk is made again (log entry 20). -/
def Obligations.ParksMovesAndRefreshes : Prop :=
  ∀ s : State,
    (∀ p rest th st x, First s p rest → p.dest = .core s.ev.core → p.body = .migrate th st → s.ctx? p.ctx = some x →
      s.idleCore s.ev.core p.ctx = true → ∃ t, exec .migrationArrival s = .next t ∧ t.net = rest ∧ t.cur.run = .running
        ∧ t.cur.pl = 0 ∧ t.cur.tvec = x.rcb.savert &&& 0x00FF_FFFF_FFFF_FFF8 ∧ t.cur.preempt = s.cur.yreq
        ∧ t.cur.t = { (match st with | some d => th.setFile .s d 0 | none => th) with nom := 0 })
    ∧ (∀ m e run, s.cur.fwd[s.ev.pick]? = some (m, e, run) → e ≤ s.time → s.owed s.ev.core run = false →
        ∃ t, exec .forwardEntryExpire s = .next t ∧ t.cur.fwd = dropAt s.cur.fwd s.ev.pick)
    ∧ (∃ t : State, exec .parkWake s = .next t ∧ ∀ (n j : Nat) (x : Access), (s.coreAt n).mem[j]? = some x → ∃ y : Access, (t.coreAt n).mem[j]? = some y
        ∧ y = { x with parked := y.parked, since := y.since }
        ∧ y.since = (if x.parked ≠ none ∧ y.parked = none then s.time else x.since)
        ∧ (∀ key since, x.parked = some (key, since) → y.parked =
            if parkLine key = s.ev.val.toNat / 64 + s.ev.pick * 2 ^ 64 / 64 ∧ s.wakes key = true then none else x.parked)
        ∧ (x.parked = none → y.parked = none))
    ∧ (∀ (x : Access) key since, s.ev.val = 0 → s.cur.mem[s.ev.pick]? = some x → x.parked = some (key, since) →
      s.pastLimit s.cur.ctxid.toNat since = true → (∀ e ∈ s.cur.mem.take s.ev.pick, e.cleared = true) → s.cur.pushes = [] → Alone s →
        ∃ t, exec .parkTimeout s = .next t ∧ Trapped s t cPageFault x.addr x.pc s.cur.tvec)
    ∧ (∀ k key since, s.ev.val = 3 → s.cmdAt s.ev.core s.ev.pick = some k → k.parked = some (key, since) →
      s.pastLimit k.ctx since = true → ∃ t, exec .parkTimeout s = .next t
        ∧ (let y := { k with buf := [], put := 0, parked := none, status := some (3, 0x0C, k.at_) }
           t.cur.copyq = setAt s.cur.copyq s.ev.pick y))
    ∧ (∀ tag, s.isDet s.cur = false → s.cur.txn = .waita tag true → ∃ t, exec .waitaWake s = .next t
        ∧ t.cur.txn = .waita tag false)
    ∧ (let die := s.ev.pick / 32
       (s.hasCask = true → (die = 0 ∨ (die = 1 ∧ s.die1 = true)) → s.inRefresh die (s.ev.pick % 32) = true →
          s.ev.pick ∉ s.refresh → ∃ t, exec .caskRefreshStart s = .next t ∧ t.refresh = s.refresh ++ [s.ev.pick])
       ∧ (s.inRefresh die (s.ev.pick % 32) = false → ∃ t, exec .caskRefreshEnd s = .next t
          ∧ ∀ b, b ∈ t.refresh ↔ b ∈ s.refresh ∧ b ≠ s.ev.pick))
    ∧ (∀ fmt core off, s.window s.ev.val = .spad fmt s.devid core off → s.ev.ok = false →
        ∃ t, exec .softError s = .next t ∧ s.directKey (s.locate (s.ev.val &&& ~~~(3 : W64))) ∈ t.bad ∧ t.mem = s.mem)
    ∧ (s.ev.ok = true → ∃ t, exec .softError s = .next t ∧ t = s)

/-- Messages, units and queue entries reach their places: an accepted message joins the inbox or the ring and gives its sender a credit,
units join w or the home counter, a grant is at least 1 and at most half of H, and an idle core starts a handler from its oldest DATA
message. At the deadline of a yield request WEIGHT_LOST is raised exactly when some weight is lost. A device that has not answered for 50
µs refuses its messages, and an access to it faults. That the audit at the deadline counts at one moment is the model's choice (log entry
17). -/
def Obligations.MessagesAndUnitsArrive : Prop :=
  ∀ s : State,
    (∀ p rest m x, First s p rest → s.ev.data = [] → p.dest = .core s.ev.core → p.body = .msg m none → s.ctx? p.ctx = some x →
      s.cur.ctxid.toNat = p.ctx → (1 ≤ m.kind ∧ m.kind ≤ 3) → p.src < 4096 → s.fresh m = true → s.cur.inbox.length < 32 →
      s.mustSpill s.ev.core = none → ∃ t, exec .messageAccept s = .next t ∧ t.cur.inbox = s.cur.inbox ++ [m]
        ∧ t.net = rest ++ [{ src := s.ev.core, dest := .core p.src, ctx := p.ctx, body := .credit }])
    ∧ (∀ p rest, First s p rest → s.ev.ok = false → p.dest = .core s.ev.core →
      (p.body = .credit → ∃ t, exec .sendCreditReturn s = .next t ∧ t.cur.credits = min 16 (s.cur.credits + 1) ∧ t.net = rest)
      ∧ (∀ st vint run, p.body = .qans st 0 vint run → s.cur.txn = .qenq → s.cur.t.run = run → ∃ t, exec .sendCreditReturn s = .next t
          ∧ t.cur.credits = min 16 (s.cur.credits + 1) ∧ t.net = rest ∧ t.cur.txn = .answered st))
    ∧ (∀ p rest h m q u, First s p rest → p.parked = none → p.dest = .queue h → p.body = .msg m none → p.src < 4096 →
      (1 ≤ m.kind ∧ m.kind ≤ 3) → m.weight ≠ 0 → s.ctx? p.ctx ≠ none → s.queueOf h = some q → s.isRunQueue h = false →
      p.ctx = q.owner.toNat → q.full = false → q.sleepers = [] → q.watch = [] → s.ringParks q = none →
      ({ s with net := rest } : State).ringPush h q m.bytes = some u → ∃ t, exec .sliceQueueAccept s = .next t
        ∧ FMap.get? t.queues (queueKey h) = some { q with tail := q.tail + 1 } ∧ t.mem = u.mem ∧ t.cache = u.cache
        ∧ t.net = rest ++ [{ src := 8192 + queueKey h / 1024, dest := .home p.ctx, ctx := p.ctx, body := .wret m.vint m.weight.toNat },
            { src := 8192 + queueKey h / 1024, dest := .core p.src, ctx := p.ctx, body := .credit }])
    ∧ (∀ m rest x, s.cur.run = .idle → s.cur.inbox = m :: rest → s.fresh m = true → s.ctxOf s.cur = some x →
      s.idleIn s.ev.core s.cur.ctxid = true →
      (s.mustSpill s.ev.core = none → s.cur.popReq = false → s.popOut s.ev.core x = false → ∃ t, exec .inboxEntryStart s = .next t
        ∧ t.cur.inbox = rest ∧ t.cur.run = .running ∧ t.cur.pl = 0 ∧ t.cur.t.pc = x.rcb.inboxent ∧ t.cur.t.w = m.weight
        ∧ t.cur.t.vint = m.vint ∧ t.cur.t.fmask = (if m.fut then 1 else 0) ∧ t.cur.t.nom = 0
        ∧ (t.cur.t.s.toList.getD 10 0 = m.head) ∧ (m.payload.length = 6 → ∀ j, j < 6 → t.cur.t.s.toList.getD (4 + j) 0 = m.payload.getD j 0))
      ∧ (∀ h q u, s.mustSpill s.ev.core = some m → s.spillOf s.cur = some (h, q) → q.full = false → q.sleepers = [] → q.watch = [] →
          s.ringPush h q m.bytes = some u → ∃ t, exec .spillRetry s = .next t ∧ t.cur.inbox = rest ∧ t.mem = u.mem
            ∧ FMap.get? t.queues (queueKey h) = some { q with tail := q.tail + 1 }
            ∧ ∀ y, s.ctx? m.ctx = some y → m.vint = y.vint → m.weight ≠ 0 →
                ∃ z, t.ctx? m.ctx = some z ∧ z.H = y.H + m.weight.toNat ∧ z.voidcnt = y.voidcnt))
    ∧ (∀ r, s.cur.mcsts[s.ev.pick]? = some r → r.total ≤ r.answered → ∃ t p m, exec .mcstdone s = .next t
      ∧ t.cur.mcsts = dropAt s.cur.mcsts s.ev.pick ∧ t.cur.credits = min 16 (s.cur.credits + 1)
      ∧ (s.isDet s.cur = false → t.net = s.net ++ [p])
      ∧ (∀ x, s.isDet s.cur = true → s.ctxOf s.cur = some x → x.committing = false → t.net = s.net ∧ t.cur.heldOut = s.cur.heldOut ++ [p])
      ∧ p.dest = .core s.ev.core ∧ p.body = .msg m none ∧ m.kind = 7 ∧ m.payload.getD 0 0 = r.failed)
    ∧ (∀ p rest x run, First s p rest → s.ev.ok = false → p.body = .draw run → s.ctx? p.ctx = some x → x.H ≠ 0 → x.draws = [] →
      ∃ t y, exec .drawRequest s = .next t ∧ t.ctx? p.ctx = some y ∧ y.H = x.H - max 1 (x.H / 2)
        ∧ t.net = rest ++ [{ src := x.home, dest := .core p.src, ctx := p.ctx, body := .grant x.vint (max 1 (x.H / 2)) run }])
    ∧ (∀ p rest vint g n, First s p rest → p.dest = .core s.ev.core → p.body = .grant vint g s.cur.t.run → s.cur.txn = .draw n →
      s.cur.t.w ≠ 0 → ∃ t, exec .drawGrant s = .next t
        ∧ t.cur.txn = .drawn (n + g) ∧ t.cur.t.w = s.cur.t.w + BitVec.ofNat 32 g ∧ t.cur.t.draws = s.cur.t.draws + 1 ∧ t.net = rest)
    ∧ (∀ p rest vint n x, First s p rest → p.body = .wret vint n → s.ctx? p.ctx = some x → ∃ t y, exec .weightReturn s = .next t
      ∧ t.net = rest ∧ t.ctx? p.ctx = some y
      ∧ (vint = x.vint → y.H = x.H + n ∧ y.voidcnt = x.voidcnt)
      ∧ (vint ≠ x.vint → y.H = x.H ∧ (x.saved = false → y.voidcnt.toNat = min (x.voidcnt.toNat + 1) (2 ^ 32 - 1))))
    ∧ (∀ x since, s.ctx? s.ev.val.toNat = some x → x.yreq = some since → x.lost = false → x.H ≠ x.total →
      since + x.rcb.qdeadline.toNat ≤ s.time → ∃ t y, exec .quiescenceDeadline s = .next t ∧ t.ctx? s.ev.val.toNat = some y
        ∧ y.lost = true ∧ y.H = x.H
        ∧ (x.total ≤ s.audit s.ev.val.toNat → t.cores = s.cores ∧ y.events = x.events)
        ∧ (s.audit s.ev.val.toNat < x.total →
          (∀ n, s.supervisorOf s.ev.val.toNat = some n → y.events = x.events
            ∧ t = { s with cores := t.cores, ctxs := t.ctxs } ∧ (∀ m, m ≠ n → t.coreAt m = s.coreAt m)
            ∧ t.coreAt n = { s.coreAt n with events := (s.coreAt n).events ++ [(cWeightLost, BitVec.ofNat 32 s.ev.val.toNat)] })
          ∧ (s.supervisorOf s.ev.val.toNat = none → t.cores = s.cores ∧ y.events = x.events ++ [cWeightLost])))
    ∧ (∀ h, s.heldMsgs[s.ev.pick]? = some h → h.until_ ≤ s.time → ∃ t, exec .heldMessageRelease s = .next t
      ∧ t.heldMsgs = dropAt s.heldMsgs s.ev.pick ∧ t.net = s.net ++ [h.pkt])
    ∧ (∀ k x, Concerns s k x → s.ev.ok = false → s.ev.val = 0 → (∃ b ∈ x.bytes, (s.awayAt b).isSome = true) →
        x.performed = false → x.since + 50000 ≤ s.time → (∀ e ∈ s.cur.mem.take k, e.cleared = true) → s.cur.pushes = [] → Alone s →
          ∃ t, exec .gatewayTimeout s = .next t ∧ Trapped s t cBadAddress x.addr x.pc s.cur.tvec)
    ∧ ∀ p rest m id since, First s p rest → s.ev.ok = true → p.dest = .remote id → p.body = .msg m none → m.kind ≠ 6 → p.src < 4096 →
        p.since = some since → since + 50000 ≤ s.time → ∃ t, exec .gatewayTimeout s = .next t
          ∧ t.net = rest ++ [{ src := s.ev.core, dest := .core p.src, ctx := p.ctx, body := .msg (nackOf m 7 id) none }]

/-- The home core keeps its region: START records and pops, withdrawals, the governor's rebinding, triggers, quanta in their steps,
reclamation marks, which touch only the producer of their future, and frames that return; each where the areas that it uses can be
reached. That a quantum end is made in steps, each core's with its waiting word before the next core's, is the model's choice (log entry
27); that the governor counts the entries of the rings, and that a rebinding which finds no idle core waits for the next one, is log entry
43's. -/
def Obligations.HomesServeTheirRegions : Prop :=
  ∀ s : State,
    (∀ p rest m prio code x u, First s p rest → p.body = .start m prio code → s.ctx? p.ctx = some x → m.vint = x.vint →
      ({ s with net := rest } : State).areaWait (x.freeArea ++ ({ s with net := rest } : State).queueAreas x prio) = false →
      ({ s with net := rest } : State).startRecord p.ctx m prio code = some u → ∃ t, exec .startAccept s = .next t ∧ t.mem = u.mem
        ∧ t.queues = u.queues
        ∧ t.net = u.net ++ [{ src := x.home, dest := .core p.src, ctx := p.ctx, body := .credit }]
        ∧ ∀ y, u.ctx? p.ctx = some y → y.vint = m.vint → ∃ z, t.ctx? p.ctx = some z ∧ z.H = y.H + m.weight.toNat)
    ∧ (∀ x, s.ctxOf s.cur = some x → s.cur.run = .idle → s.idleIn s.ev.core s.cur.ctxid = true → s.cur.inbox = [] →
      s.cur.yreq = false → x.saved = false → s.cur.popReq = false → s.popOut s.ev.core x = false → s.isDet s.cur = false →
        ∃ t, exec .popRequest s = .next t ∧ t.cur.popReq = true
          ∧ t.net = s.net ++ [{ src := s.ev.core, dest := .home s.cur.ctxid.toNat, ctx := s.cur.ctxid.toNat, body := .pop }])
    ∧ (∀ p rest x, First s p rest → s.ctx? p.ctx = some x →
      (s.ev.ok = false → p.body = .pop → ∃ t y, exec .popServe s = .next t ∧ t.net = rest ∧ t.ctx? p.ctx = some y
        ∧ y.pops = x.pops ++ [p.src])
      ∧ (p.body = .unpop → ∃ t y, exec .popWithdraw s = .next t ∧ t.net = rest ∧ t.ctx? p.ctx = some y
        ∧ ∀ n, n ∈ y.pops ↔ n ∈ x.pops ∧ n ≠ p.src))
    ∧ (∀ x n rest q qs qu f, s.ev.ok = true → s.ctx? s.ev.val.toNat = some x → s.mayPop x = true → x.pops = n :: rest →
      x.order n (s.fullQueues x) = q :: qs → s.idleIn n (BitVec.ofNat 32 s.ev.val.toNat) = true →
      s.queueOf (x.rcb.cq.getD q 0) = some qu → (∀ i, x.chains.getD i 0 = 0) → s.frameOk x f = true →
      let e := (s.skipVoid qu qu.count).entry (s.skipVoid qu qu.count).head
      f = s.vNum e 8 → s.areaWait ((e, 64) :: frameArea f :: s.queueAreas x q) = false → ∃ t, exec .popServe s = .next t
        ∧ (let c := t.coreAt n
           c.run = .running ∧ c.pl = 0 ∧ c.t.frame = BitVec.ofNat 64 f ∧ c.t.pc = BitVec.ofNat 64 (s.vNum f 8 % 2 ^ 56) ∧ c.t.nom = 0
            ∧ c.t.w = BitVec.ofNat 32 (s.vNum (f + 0xC) 4) ∧ c.t.vint = x.vint)
        ∧ ∃ y, t.ctx? s.ev.val.toNat = some y ∧ n ∉ y.pops)
    ∧ (∀ x, s.ctx? s.ev.val.toNat = some x → x.rcb.modef.getLsbD 2 = true → x.yreq = none → x.saved = false → x.govAt + 1000 ≤ s.time →
      x.rcb.govmask ≠ 0 → ∃ t y, exec .governorEvaluate s = .next t ∧ t.ctx? s.ev.val.toNat = some y ∧ y.govAt = s.time
        ∧ (let qs := (List.range 16).filter (fun q => x.rcb.govmask.getLsbD q)
           ((∀ q ∈ qs, s.entries x q ≤ x.rcb.govhi.toNat) → y.stages = x.stages ∧ y.rebind = x.rebind)
           ∧ ∀ a b, a ∈ qs → b ∈ qs → (∀ q ∈ qs, q ≠ a → s.entries x q < s.entries x a) →
              (∀ q ∈ qs, q ≠ b → s.entries x b < s.entries x q) → x.rcb.govhi.toNat < s.entries x a →
              s.entries x b < x.rcb.govlo.toNat →
              2 + (x.rebind.filter (fun e => decide (e.1 = b))).length ≤ (x.stages.filter (fun e => decide (e.2 = b))).length →
                let idle (n : Nat) : Prop := (n, b) ∈ x.stages ∧ s.idleIn n (BitVec.ofNat 32 s.ev.val.toNat) = true
                (∀ m, idle m → (∀ n, idle n → n ≤ m) → y.stages = x.stages.map (fun e => if e.1 = m then (m, a) else e)
                  ∧ y.rebind = x.rebind)
                ∧ ((∀ n, ¬ idle n) → y.stages = x.stages ∧ y.rebind = x.rebind ++ [(b, a)])))
    ∧ (let bs := s.ev.data
       let id := fieldAt bs 0 4
       let tag := fieldAt bs 8 8 % 2 ^ 56 * 256
       (s.ctx? id = none → ∃ t, exec .trigger s = .next t ∧ t.trigstat = BitVec.ofNat 64 (tag + 2) ∧ t.ctxs = s.ctxs)
       ∧ ∀ x, s.ctx? id = some x →
        (s.caskBusy = true → ∃ t, exec .trigger s = .next t ∧ t.trigstat = BitVec.ofNat 64 (tag + 5) ∧ t.ctxs = s.ctxs)
        ∧ (s.caskBusy = false → (x.H ≠ x.total ∨ x.saved = true ∨ x.yreq ≠ none) →
            ∃ t, exec .trigger s = .next t ∧ t.trigstat = BitVec.ofNat 64 (tag + 1) ∧ t.ctxs = s.ctxs)
        ∧ ∀ nd u, s.caskBusy = false → x.H = x.total → x.saved = false → x.yreq = none → bs.length = 256 → fieldAt bs 4 1 = 0 →
            s.readGraph x.rcb.graph.toNat (2 ^ 50) = some [nd] → nd.weight ≤ x.total → 1 ≤ (s.freeFrames x).length →
            s.startRecord id { kf := 1, vint := x.vint, weight := BitVec.ofNat 32 nd.weight, src := 0, hnd := 0, payload := nd.payload,
                               ctx := id } (nd.dest / 2 ^ 58 % 16) (BitVec.ofNat 64 (nd.dest % 2 ^ 56)) = some u →
              ∃ t, exec .trigger s = .next t ∧ t.trigstat = BitVec.ofNat 64 tag ∧ t.mem = u.mem ∧ t.queues = u.queues ∧ t.ctxs = u.ctxs)
    ∧ (∀ x, s.ctx? s.ev.val.toNat = some x → x.rcb.modef.getLsbD 1 = true →
      (x.committing = false → (∀ n ∈ x.cores, (s.coreAt n).reached = true) →
        ∃ t, exec .quantumEnd s = .next t
          ∧ t.ctx? s.ev.val.toNat = some { x with committing := true, toCommit := x.sorted, engines := true })
      ∧ (x.committing = true → (∀ n ∈ x.cores, (s.coreAt n).qgo = false) →
        (∀ n rest, x.toCommit = n :: rest → (s.coreAt n).mem = [] → (s.coreAt n).heldOut = [] → ∃ t y, exec .quantumEnd s = .next t
          ∧ t.ctx? s.ev.val.toNat = some y ∧ y.toCommit = rest ∧ y.committing = true
          ∧ (t.coreAt n).qgo = (decide ((s.coreAt n).run = .running) && decide ((s.coreAt n).slot = .waiting)))
        ∧ (x.toCommit = [] → x.engines = true → (∀ n ∈ x.cores, (s.coreAt n).copyq = []) → s.tiles = [] →
          ∃ t y, exec .quantumEnd s = .next t ∧ t.ctx? s.ev.val.toNat = some y ∧ y.engines = false ∧ y.committing = true)
        ∧ (x.toCommit = [] → x.engines = false → (∀ p ∈ s.net, p.ctx ≠ s.ev.val.toNat ∨ p.waits = true) →
          (∀ n ∈ x.cores, s.startable n = false ∧ (s.coreAt n).preempt = false) → x.rcb.cq = List.replicate 16 0 → s.queueOf 0 = none →
            ∃ t y, exec .quantumEnd s = .next t ∧ t.ctx? s.ev.val.toNat = some y ∧ y.committing = false ∧ y.seq = x.seq + 1
              ∧ ∀ n ∈ x.cores, (t.coreAt n).qended = false ∧ (t.coreAt n).qcount = 0)))
    ∧ (∀ p rest f fu x, First s p rest → p.body = .mark f fu → s.inFlight f.toNat = false → s.ctx? p.ctx = some x → x.saved = false →
      s.areaWait (s.markAreas x f.toNat fu.toNat) = false →
      (s.owes f.toNat ≠ some fu.toNat → ∃ t, exec .reclaimMark s = .next t ∧ t.net = rest ∧ t.cores = s.cores)
      ∧ ∀ m, s.owes f.toNat = some fu.toNat → s.runnerOf p.ctx f.toNat = some m → (∀ k ∈ s.cordonOf m, (s.coreAt k).sleeps = false) →
        ∃ t, exec .reclaimMark s = .next t ∧ t.net = rest ∧ ∀ k ∈ s.cordonOf m, (t.coreAt k).marked = true)
    ∧ ∀ x f, s.ctx? s.ev.val.toNat = some x →
        (x.ended.filter (fun f => decide (s.vNum (frJoin f.toNat) 4 = 0)))[s.ev.pick]? = some f →
        s.vNum (frParent f.toNat) 8 = 0 → s.areaWait (s.returnAreas x f.toNat) = false → ∃ t y, exec .frameReturn s = .next t ∧ t.ctx? s.ev.val.toNat = some y ∧ f ∉ y.ended
          ∧ y.freeHead.toNat = (if (s.freeFrames x).any (fun g => decide (g < f.toNat)) then x.freeHead.toNat else f.toNat)

/-- The engines, the press, the links and the reduction groups make the steps of their rules: a strip is fetched ahead, a command is
validated, moved by chunks and completed with its message, a task is issued, run and ended, and a group is armed, registered for,
combined and aborted. That a press reads its operands in one step and writes its tile in the same one or element by element in later
ones, as `ev.ok` says, is the model's choice (log entry 29), and so are the step that brings the other members' contributions (log entry
30) and that a receiver of this end switches its slot in a step of its own (log entry 38). -/
def Obligations.EnginesLinksAndReductionsStep : Prop :=
  ∀ s : State, let n := s.ev.core; let i := s.ev.pick; let sg := sgOf n
    (∀ (q : Stream) (e : Strip) (u : State), s.cur.streamOf (28 + i) = some q → q.write = false → q.parked = none → q.fetched.length < q.depth →
      q.pos + q.fetched.length < q.length → s.readStrip n (q.addr (q.pos + q.fetched.length)) = .strip e u →
        ∃ t, exec .streamFetch s = .next t ∧ t.cur.streamOf (28 + i) = some { q with fetched := q.fetched ++ [e], since := s.time } ∧ t.mem = u.mem
          ∧ t.cache = u.cache)
    ∧ (∀ k : CopyCmd, s.cmdAt n i = some k →
      (k.validated = false → ∃ t, exec .copyValidate s = .next t ∧ t.cur.copyq =
        setAt s.cur.copyq i { k with validated := true, status := match s.copyCheck k with | some st => some (st, 0, 0) | none => k.status })
      ∧ (k.validated = true → k.status = none → k.waiting = false → k.parked = none → s.ticketTurn k.handle k.ticket = true →
          k.held = [] → k.buf = [] → k.put = 0 → s.ev.ok = false → 0 < k.chunk.2.2 → s.detCtx k.ctx = false →
          contribOf k.chunk.2.1 = none →
          (let c := k.core s.cur
           let read := s.chunkRead c k k.chunk.1 (k.chunk.2.2 / 4) []
           -- the read's flit has crossed its link
           let s1 : State := { s with links := s.linksAfter (s.locsOf k.chunk.1 4) true }
           (∀ bs, read = (bs, none) → (s.locsOf k.chunk.2.1 bs.length).any s1.blockedPlace = false →
             (∀ u, s1.chunkWrite c k.comb k.chunk.2.1 (wordsOf bs) = .ok u → ∃ t, exec .copyChunk s = .next t ∧ t.mem = u.mem
               ∧ t.cmdAt n i = some ((fun m => { k with since := s.time, count := m, status := if m < k.total then none else some (0, 0, 0) })
                   (k.count + bs.length)))
             ∧ ∀ code a, s1.chunkWrite c k.comb k.chunk.2.1 (wordsOf bs) = .error (.fault code a) → ∃ t, exec .copyChunk s = .next t
               ∧ t.mem = s.mem ∧ t.cmdAt n i = some { k with since := s.time, status := some (3, code.toNat, a) })
           ∧ ∀ bs code a, read = (bs, some (.fault code a)) → ∃ t, exec .copyChunk s = .next t
               ∧ t.mem = s.mem ∧ t.cmdAt n i = some { k with status := some (3, code.toNat, a) }))
      ∧ (∀ st code addr, k.status = some (st, code, addr) → s.detCtx k.ctx = false →
        (st = 0 → k.count ≠ 0 → k.siga ≠ 0 → s.areaWait [(k.siga, 8)] = false) → ∃ t, exec .copydone s = .next t
          ∧ t.cur.copyq = dropAt s.cur.copyq i
          ∧ (∃ p, t.net = s.net ++ [p] ∧ p.dest = .core n ∧ ∃ m : Msg, p.body = .msg m none ∧ m.kind = 4
              ∧ m.payload = [BitVec.ofNat 64 (st + 256 * code), BitVec.ofNat 64 (if st = 0 ∨ st = 3 then k.count else 0), addr, 0, 0, 0])
          ∧ (st ≠ 0 ∨ k.count = 0 ∨ k.siga = 0 → t.mem = s.mem)
          ∧ ∀ u, st = 0 → k.count ≠ 0 → k.siga ≠ 0 → s.vPut k.siga (toBytes 8 k.sigv) = some u → t.mem = u.mem)
      ∧ (∀ g q o l, k.places = (g, q, o) :: l → k.waiting = true →
          (s.ev.ok = true ∨ (s.group g).state ≠ 2 → ∃ t k', exec .reductionAbort s = .next t ∧ t.cmdAt n i = some k'
            ∧ k'.status = some (7, 0, 0) ∧ k'.waiting = false)
          ∧ ((s.group g).state = 2 → (∀ p ∈ k.places, p.1 = g ∧ p.2.1 = q) → s.cores = [(n, s.cur)] →
              s.cur.copyq.length = 1 → s.ev.data.length = ((s.group g).list.length - 1) * (k.held.filter contrib).length →
              (k.held.filter contrib).length % 4 = 0 →
              s.areaWait (k.places.map (fun e => ((s.group g).base.toNat + e.2.2, 1))) = false → ∃ t k', exec .reductionCombine s = .next t ∧ t.cmdAt n i = some k'
                ∧ k'.status = some (0, 0, 0) ∧ k'.waiting = false)))
    ∧ (∀ j (k : TileTask), s.nextTask sg = some (j, k) →
      (s.depFailed k = true → ∃ t, exec .tileTaskIssue s = .next t ∧ t.tasks sg = setAt (s.tasks sg) j { k with status := .done 5 0 0 0 })
      ∧ ∀ p, s.depFailed k = false → s.freePress sg = some p → ∃ t, exec .tileTaskIssue s = .next t
          ∧ t.tasks sg = setAt (s.tasks sg) j { k with status := .issued p, since := s.time })
    ∧ (∀ k : TileTask, (s.tasks sg)[i]? = some k → s.detCtx k.ctx = false →
      (∀ st c10 fc fa, k.status = .done st c10 fc fa → s.areaWait (s.tileUse k) = false → ∃ t, exec .tiledone s = .next t ∧ TileEnds s t i k st c10 fc)
      ∧ (∀ p x u, k.status = .issued p → k.marked = false → k.parked = none → k.out = none → s.ev.ok = false → s.tileOperands k = .ok x →
          s.tileWrite (k.core (s.coreAt k.poster)) false (tileBytes k x).length (tileBytes k x) = (u, [], none) →
            u.areaWait (u.tileUse k) = false → ∃ t, exec .tiledone s = .next t ∧ TileEnds s t i k 0 (tileCode10 k x) 0)
      ∧ (∀ p x, k.status = .issued p → k.marked = false → k.parked = none → k.out = none → s.ev.ok = true → s.tileOperands k = .ok x →
          ∃ t, exec .tiledone s = .next t ∧ t.mem = s.mem
            ∧ t.tasks sg = setAt (s.tasks sg) i { k with out := some (tileCode10 k x, tileBytes k x), since := s.time })
      ∧ (∀ p c10 a bs l u, k.status = .issued p → (k.marked = false ∨ k.begun = true) → k.parked = none → k.out = some (c10, (a, bs) :: l) →
          s.ev.ok = true → (s.locsOf a bs.length).any s.blockedPlace = false → s.engWrite (k.core (s.coreAt k.poster)) a bs = .ok u →
            ∃ t, exec .tiledone s = .next t ∧ t.mem = u.mem
              ∧ t.tasks sg = setAt (s.tasks sg) i { k with out := some (c10, l), begun := true, since := s.time })
      ∧ (∀ p c10, k.status = .issued p → (k.marked = false ∨ k.begun = true) → k.parked = none → k.out = some (c10, []) →
          s.areaWait (s.tileUse k) = false → ∃ t, exec .tiledone s = .next t ∧ TileEnds s t i k 0 c10 0)
      ∧ (k.marked = true → k.begun = false → (∀ st c10 fc fa, k.status ≠ .done st c10 fc fa) →
          s.areaWait (s.tileUse k) = false → ∃ t, exec .tileTaskAbort s = .next t
          ∧ TileEnds s t i k 6 0 0))
    ∧ (∀ (k : TileTask) ra rb c, k.cout = 2 → k.mode = 4 → (pressElem k ra rb [] [] c : Int) =
      ((if k.acc then sxBits 32 c else 0)
        + ((List.range k.depth).map (fun j => sxBits 8 (rowElem 8 ra j) * sxBits 8 (rowElem 8 rb j))).sum) % 2 ^ 32)
    ∧ (i < 19 →
      (∃ t, exec .keyMarkerAccept s = .next t ∧ t.linkAt i = if s.ev.ok then { s.linkAt i with recvB := !(s.linkAt i).recvB }
        else { s.linkAt i with marker := false })
      ∧ (2 ^ 47 ≤ (s.linkAt i).count → ∃ t, exec .keydue s = .next t ∧ t.linkAt i = { s.linkAt i with keydue := true })
      ∧ (2 ^ 48 ≤ (s.linkAt i).count → ∃ t, exec .keyExhausted s = .next t ∧ t.linkAt i = { s.linkAt i with holding := true })
      ∧ ∃ t, exec .flitAuthFail s = .next t ∧ (t.linkAt i).replays = (if s.ev.ok then 0 else (s.linkAt i).replays + 1)
          ∧ ((t.linkAt i).down = true ↔ (s.linkAt i).down = true ∨ (s.ev.ok = false ∧ 16 ≤ (s.linkAt i).replays)))
    ∧ (∀ x off v g f, s.regStore = some (x, off, v) → s.regWrite off v = .redcfg g f →
      (f = 0 → v.getLsbD 63 = true → s.areaWait [((s.group g).mlist.toNat, 4 * (v.extractLsb' 16 16).toNat)] = false) → ∃ t, exec .redcfgWrite s = .next t
      ∧ Performed s t
      ∧ (f = 1 → t.group g = { s.group g with rbase := v &&& 0x00FF_FFFF_FFFF_FFFF })
      ∧ (f = 2 → t.group g = { s.group g with mlist := v &&& 0x00FF_FFFF_FFFF_FFFF })
      ∧ (f = 0 → (v.getLsbD 63 = false ∨ (v.extractLsb' 16 16).toNat < 2 ∨ 16384 < (v.extractLsb' 16 16).toNat
            ∨ 2 < (v.extractLsb' 8 8).toNat ∨ 2 < (v.extractLsb' 0 8).toNat ∨ (s.group g).rbase.toNat % 64 ≠ 0
            ∨ (s.group g).mlist.toNat % 8 ≠ 0) →
          t.group g = { s.group g with ctrl := v &&& 0xFFFF_FFFF, state := 0, list := [] }))
    ∧ (i < 1024 → s.ev.val.toNat < 2 ^ 14 → s.ev.val.toNat ≠ s.devid → ∃ t, exec .memberRegistration s = .next t
      ∧ (∀ m, m ∈ t.members ↔ (m ∈ s.members ∧ ¬ (m.group = i ∧ m.dev = s.ev.val.toNat))
          ∨ (s.ev.ok = true ∧ m = Member.mk i s.ev.val.toNat (fieldAt s.ev.data 0 1) (fieldAt s.ev.data 1 1)
            (listOf (s.ev.data.drop 2))))
      ∧ (t.group i).state = (if (s.group i).armed then (if t.allRegistered i (t.group i) then 2 else 1) else 0))
    ∧ ∀ a b : Nat, a < 2 ^ 32 → b < 2 ^ 32 → combineAll 0 2 [a, b] = (a + b) % 2 ^ 32

/-- The device makes the steps of chapter 17: register writes, resets that keep what the rules keep, the lifecycle's advance, isolation
and repair of a supergroup, the host's reads and writes, the scrub of a line, the clock, and accesses of other devices. That the
lifecycle's advance wipes the memories, and what cores have fetched of them, and keeps cores, contexts and keys is the model's choice (log
entry 40), as are that ISOLATE names a supergroup of the writing core's die (log entry 12) and how far the clock steps down (log entry
44). -/
def Obligations.DeviceStepsAndResets : Prop :=
  ∀ s : State, let n := s.ev.core; let i := s.ev.pick; let a := s.ev.val
    (∀ x off v, s.regStore = some (x, off, v) →
      (∀ u, s.regWrite off v = .plain u → ∃ t, exec .deviceRegisterWrite s = .next t ∧ Performed s t
        ∧ t.scrubPend = (if off / 8 = 0x4000_0002 then v &&& 0x80FF_FFFF_FFFF_FFFF else s.scrubPend)
        ∧ t.walkroot = (if off / 8 = 0x1000_0000_0000 then v &&& 0xF0FF_FFFF_FFF0_0000 else s.walkroot) ∧ t.mem = s.mem)
      ∧ (s.regWrite off v = .lcstate → ∃ t, exec .lcstateWrite s = .next t
          ∧ (v.toNat % 4 = s.lcstate.toNat + 1 → t.lcstate = s.lcstate + 1 ∧ Performed s t ∧ t.ctxs = s.ctxs
              ∧ t.keys = s.keys ∧ (∀ m, m ≠ n → t.coreAt m = { s.coreAt m with icache := [], code := none })
              ∧ ∀ k, Memory.read t.mem k = if keptCold k then Memory.read s.mem k else 0)
          ∧ (v.toNat % 4 ≠ s.lcstate.toNat + 1 → t.lcstate = s.lcstate ∧ t.mem = s.mem ∧ Performed s t))
      ∧ (s.regWrite off v = .isolate → ∃ t, exec .isolateWrite s = .next t ∧ Performed s t
          ∧ (let sg := dieOf n * 32 + (v.extractLsb' 6 5).toNat
             (v.getLsbD 63 = false → t.isolate = s.isolate ∧ t.isolated = s.isolated)
             ∧ (v.getLsbD 63 = true → s.mayIsolate sg = true → sg ∉ s.isolated →
                 t.isolate = 0x8000_0000_0000_0000 ||| (v &&& 0x7C0) ∧ t.isolated = s.isolated ++ [sg])
             ∧ (v.getLsbD 63 = true → s.mayIsolate sg = false →
                 t.isolated = s.isolated ∧ t.isolate.getLsbD 62 = true ∧ t.isolate.getLsbD 63 = s.isolate.getLsbD 63))))
    ∧ (∃ t, exec .coldReset s = .next t ∧ t.caps = s.caps ∧ t.lcstate = s.lcstate ∧ t.firmware = s.ev.ok ∧ t.ctxs = [] ∧ t.cores = []
      ∧ t.cycle = 0 ∧ t.cache = [] ∧ ∀ k, Memory.read t.mem k = if keptCold k then Memory.read s.mem k else 0)
    ∧ (∃ t, exec .warmReset s = .next t ∧ t.caps = s.caps ∧ t.lcstate = s.lcstate ∧ t.firmware = s.ev.ok ∧ t.ctxs = [] ∧ t.cores = []
      ∧ t.cache = [] ∧ ∀ k, Memory.read t.mem k = if keptWarm k then Memory.read s.mem k else 0)
    ∧ (i ∈ s.isolated →
      (∃ t, exec .supergroupReset s = .next t ∧ (∀ m, m / 64 = i → (t.coreAt m).run = .inReset ∧ (t.coreAt m).mem = [])
        ∧ (∀ m, m / 64 ≠ i → t.coreAt m = s.coreAt m)
        ∧ (∀ line l, FMap.get? s.cache line = some l → (∀ m, l.l1 = some m → m / 64 ≠ i) → (l.l1 = none → s.homeSlice (line * 64) ≠ i) →
            FMap.get? t.cache line = some l)
        ∧ ∀ k, Memory.read t.mem k = if spaceOf k = spSpad ∧ offOf k / 2 ^ 22 = i then 0 else Memory.read s.mem k)
      ∧ ((∀ m, m / 64 = i → (s.coreAt m).run = .inReset) → (s.repaired.filter (fun x => decide (x / 32 = i / 32))).length < 2 →
          ∃ t, exec .supergroupRepair s = .next t ∧ (∀ m, m / 64 = i → t.coreAt m = { s.coreAt m with run := .running }) ∧ i ∉ t.isolated
            ∧ t.repaired = s.repaired ++ [i] ∧ t.mem = s.mem))
    ∧ (∀ fmt dev core off, s.window a = .spad fmt dev core off → s.blockedPlace (s.locate a) = false →
      (i = 1 → ∃ t, exec .hostRead s = .next t ∧ t.hostOut = (s.hostByte a).map (fun b => [b]) ∧ t.mem = s.mem)
      ∧ ∀ b, s.ev.data = [b] → dev = s.devid → s.hostCheck .store a = none →
          s.directKey (s.locate a) / 4 * 4 ∉ s.bad → ∃ t, exec .hostWrite s = .next t
            ∧ Memory.read t.mem (s.directKey (s.locate a)) = b ∧ SameMem s t [s.directKey (s.locate a)])
    ∧ (s.scrubBusy = true → (∀ fmt dev core off, s.window (s.scrubCur.setWidth 64) = .spad fmt dev core off →
        ∃ t, exec .scrubLine s = .next t ∧ t.scrubCur = s.scrubCur + 64
          ∧ t.scrubBusy = decide (s.scrubCur + 64 ≠ s.scrubEnd)
          ∧ (let ks := (s.locsOf (s.scrubCur.setWidth 64) 64).map s.directKey
             SameMem s t ks ∧ ∀ k ∈ ks, Memory.read t.mem k = if s.scrubMode = 0 then 0 else Memory.read s.mem k))
      ∧ (s.window (s.scrubCur.setWidth 64) = .none → ∃ t, exec .scrubLine s = .next t ∧ t.scrubErr = true ∧ t.scrubBusy = false))
    ∧ (∃ t, exec .clockStepDown s = .next t ∧ s.cycleLen < t.cycleLen ∧ i ≤ t.cycleLen ∧ t.cores = s.cores)
    ∧ (∃ t, exec .coolantBelowLimit s = .next t ∧ t.cycleLen = 1 ∧ t.cores = s.cores)
    ∧ (let op := fieldAt s.ev.data 0 1
      let size := fieldAt s.ev.data 1 1
      let arg := s.ev.data.drop 2
      ((∃ fmt core off, s.window a = .spad fmt s.devid core off ∧ core < s.ncores) ∨ (s.window a = .paged ∧ s.lineDev a.toNat = none)) →
      1 ≤ size → size ≤ 64 → a.toNat % size = 0 → (s.locsOf a size).any s.blockedPlace = false →
      (∀ bs u, op = 0 → s.readLocs (s.locsOf a size) .bypass none = .ok bs u → ∃ t, exec .fabricAccess s = .next t
        ∧ t.fabOut = some bs ∧ t.mem = s.mem)
      ∧ (∀ bs u, op = 1 → s.writeLocs (s.locsOf a size) (arg.take size) .bypass none = .ok bs u → ∃ t, exec .fabricAccess s = .next t
        ∧ t.fabOut = some [] ∧ t.mem = u.mem)
      ∧ (2 ≤ op → op ≤ 11 → size = 8 →
        (∀ src link tag old l, s.replayCache = (src, link, tag, old) :: l → src = i / 2 ^ 16 → link = n → tag = i % 2 ^ 16 →
          ∃ t, exec .fabricAccess s = .next t ∧ t.fabOut = some (toBytes 8 old.toNat) ∧ t.mem = s.mem)
        ∧ (s.ev.ok = true → s.replayCache = [] → ∃ t, exec .fabricAccess s = .next t ∧ t.fabOut = none ∧ t.mem = s.mem)
        ∧ ∀ bs u bs' u', s.ev.ok = false → s.replayCache = [] → s.readLocs (s.locsOf a 8) .bypass none = .ok bs u →
            s.writeLocs (s.locsOf a 8) (toBytes 8 (amoNew (op - 2) (BitVec.ofNat 64 (ofBytes bs)) (BitVec.ofNat 64 (fieldAt arg 0 8))
              (BitVec.ofNat 64 (fieldAt arg 8 8))).toNat) .bypass none = .ok bs' u' →
              ∃ t, exec .fabricAccess s = .next t ∧ t.mem = u'.mem ∧ t.fabOut = some (toBytes 8 (ofBytes bs % 2 ^ 64))
                ∧ t.replayCache = [(i / 2 ^ 16, n, i % 2 ^ 16, BitVec.ofNat 64 (ofBytes bs))]))

/-- A word whose level is above the core's takes PRIVILEGED, with TVAL the word and, in bit 32, its index, and has none of its
effect, where its fields pass and no earlier word can still fault. -/
def Obligations.WordsAboveTheLevelArePrivileged : Prop :=
  ∀ (i : Instr) (s : State) (l : BitVec 2), levelSpec i l → s.cur.pl < l →
    fieldsOk i = true → stateOk s.cur i = true → s.cur.uncleared = false →
      ∃ t, exec i s = .next t ∧ Enters s t cPrivileged
        (s.cur.iss.insn.setWidth 64 ||| (if s.cur.iss.word1 then 0x1_0000_0000 else 0)) s.cur.iss.pc false (s.cur.pl + 1)
        (if s.cur.pl = 0 then s.cur.tvec else s.cur.mvec)

/-- The special registers read as Table 6-1 says at reset, on every core; the casks are sealed, and no
protection entry gives a right. -/
def Obligations.SpecialRegistersAtReset : Prop :=
  ∀ core : Nat, core < 4096 →
    (∀ e ∈ ([(0x000, 0x800), (0x002, 0), (0x003, 1), (0x004, 0), (0x005, 0), (0x006, 0), (0x007, 0), (0x008, 0), (0x009, 0), (0x00A, 0),
        (0x00B, 1), (0x00C, 0), (0x00D, 0), (0x00E, 0), (0x00F, 0), (0x010, 0), (0x012, 0), (0x013, 0), (0x014, 0), (0x100, 0),
        (0x101, 0), (0x102, 0), (0x103, 0), (0x104, 0), (0x105, 0), (0x106, 0), (0x200, 0), (0x201, 0)] : List (Nat × W64)),
        State.reset.csrView core e.1 = e.2)
      ∧ State.reset.caskOpen = 0 ∧ ∀ k : Nat, k < 64 → ((State.reset.coreAt core).plb.toList[k]?).map (·.rights) = some 0

/-- A cold and a warm reset clear the held marks of cores and pages, keep SCRUBEND and SCRUBPEND, end a running scrub and return
SCRUBPROG to 0. The reset of a supergroup keeps SCRUBEND and SCRUBPEND too; that it keeps the held marks and a running scrub is the
model's reading (log entry 56), as R391 names cold and warm reset for the marks, and Table 17-4 has a supergroup's reset keep all that is
not the supergroup's. -/
def Obligations.ResetsClearHeldMarksAndEndTheScrub : Prop :=
  (∀ (s : State) (i : Instr), i = .coldReset ∨ i = .warmReset →
    ∃ t, exec i s = .next t ∧ t.held = [] ∧ t.scrubEnd = s.scrubEnd ∧ t.scrubPend = s.scrubPend
      ∧ t.scrubBusy = false ∧ t.scrubErr = false ∧ t.scrubCur = 0)
  ∧ ∀ s : State, ∃ t, exec .supergroupReset s = .next t ∧ t.scrubEnd = s.scrubEnd ∧ t.scrubPend = s.scrubPend
      ∧ t.held = s.held ∧ t.scrubBusy = s.scrubBusy ∧ t.scrubErr = s.scrubErr ∧ t.scrubCur = s.scrubCur

/-- The invariant holds at reset. -/
def Obligations.TheInvariantHoldsAtReset : Prop := State.reset.Inv

/-- Every step keeps the invariant: memory in canonical form, and no core at a level that does not exist. -/
def Obligations.EveryStepKeepsTheInvariant : Prop := ∀ s t : State, s.Inv → step s = .next t → t.Inv

/-- Where the next turn is the slot of a running core that is outside a cordon or runs its trap routine, with no cause pending, no
result due for a bound register and no read of descriptors parked, the step runs the bundle at its PC. A lone bundle's word that
decodes is run: its meaning at the core, with the word in its issue register. A pair's words that decode and pass their checks
are run on what was there before the slot: word 1's meaning and then word 0's, where word 0 pops no stream; a wait or a trap of either
word ends the slot without the other's effect, but for the partner of `trap`. At bundle address + 4 a lone bundle runs word 1 alone. Where
only word 1's strip keeps word 0 waiting, the strip is stored first, so that word 0 goes in the same step: that is the model's choice
(log entries 13 and 23); and so is the moment at which a word 0 that leaves the core idle does so where word 1 divides, the cycle in which
the divide's result arrives (log entry 13). Around it the step brings the clock to the core's next issue, gives the due result of its
divider, tallies the slot and settles. -/
def Obligations.StepRunsTheDecodedInstruction : Prop :=
  ∀ (s s0 u0 : State) (ev : Ev) (b : W64),
    let n := ev.core
    let sE : State := { s0 with ev := ev }
    let c := s0.coreAt n
    let addr := c.t.pc &&& ~~~(7 : W64)
    let s1 := (sE.advanceTo c.ready).divideDue n
    let after (t : State) : State := s0.settle ((s1.afterSlot [n] t).reclaimAsleep n)
    s.turn = ({ act := .slot, ev := ev }, s0) → n < s0.ncores → s0.firmware = true → c.run = .running → c.fpark = none →
    c.gpark = none → c.preempt = false → ((c.leader = none ∧ c.members = []) ∨ c.pl ≠ 0) → sE.quantumOpen n = true →
    sE.landNext n (c.preempt || c.qended) = none →
    (c.pl = 0 → FMap.get? c.icache addr.toNat = none → s1.walkTarget n addr none = none) →
    s1.offNow ((List.range 8).map (fun i => s1.locate (addr + BitVec.ofNat 64 i))) = false → s1.fetch n addr = .bundle b u0 →
    let u := u0.answered n addr;
      (∀ w0 w1 d, slotKind c.t.pc b = .lone w0 w1 →
        let odd := c.t.pc.getLsbD 2
        let w := if odd then w1 else w0
        decodeWord w = .ok d → step s = onNext (exec d.i (u.withIssue n (issueOf (u.coreAt n) (if odd then addr + 4 else addr)
          (if odd then addr + 8 else addr + 4) odd odd w d.s.toNat))) (fun t => after (t.endParity n [d.i])))
      ∧ ∀ w0 w1 i0 i1 r0, slotKind c.t.pc b = .pair w0 w1 →
        let stall := max (wordS w0).toNat (wordS w1).toNat
        let iss0 := issueOf (u.coreAt n) addr (addr + 8) false false w0 stall
        let iss1 := issueOf (u.coreAt n) addr (addr + 8) true false w1 stall
        pairCheck u n iss0 = .ok i0 → pairCheck u n iss1 = .ok i1 → (u.coreAt n).popsOf i0 = [] →
        exec i0 (u.withIssue n iss0) = .next r0 →
          ((r0.coreAt n).slot = .waiting ∨ ((r0.coreAt n).slot = .trapped ∧ ∀ k, i0 ≠ .trap k) → step s = .next (after r0))
          ∧ ∀ r1, (r0.coreAt n).slot = .done ∨ ((r0.coreAt n).slot = .trapped ∧ ∃ k, i0 = .trap k) →
            exec i1 (u.withIssue n iss1) = .next r1 →
              ((r1.coreAt n).slot ≠ .done → step s = .next (after r1))
              ∧ ∀ t, (r1.coreAt n).slot = .done → Finishes n i0 i1 iss0 r1 t →
                ((t.coreAt n).slot ≠ .waiting → step s = .next (after t))
                ∧ ∀ y r2 t', (t.coreAt n).slot = .waiting → r1.pushNow n = some (.ok y r2) → Finishes n i0 i1 iss0 r2 t' →
                    (t'.coreAt n).slot ≠ .waiting → step s = .next (after t')

/-- Words that the spec writes out decode to the instructions it names, with their L bits, their stall counts and their operands. -/
def Obligations.WordsOfTheSpecDecode : Prop :=
  ∀ e ∈ ([(0xC04690A0, ⟨1, 0, .mul 13 4 5⟩), (0x48173400, ⟨0, 1, .add 14 13 0⟩), (0x01459008, ⟨0, 0, .ldW 11 4 0 .plain .dev .default⟩),
      (0x42960003, ⟨0, 0, .movi 12 3⟩), (0x82129088, ⟨1, 0, .stD 5 4 2 .plain .dev .default⟩), (0x83010002, ⟨1, 0, .hnew 2 .dev⟩),
      (0x84948080, ⟨1, 0, .qenq 9 0 4 0 0⟩), (0x0526_0D60, ⟨0, 0, .fset 12 3 11⟩), (0x002293FF, ⟨0, 0, .brNe 5 4 (-1)⟩),
      (0xED218440, ⟨1, 5, .vmul 3 1 2 0 0⟩), (0x5B76AD88, ⟨0, 3, .fma 13 11 12 .f32 0⟩), (0x86A290E0, ⟨1, 0, .copy 5 4 7 0⟩),
      (0x87BA2540, ⟨1, 0, .assign 20 9 10⟩)] : List (W32 × Decoded)),
    decodeWord e.1 = .ok e.2

/-- Decoding the encoding of a word gives it back, with every operand at every value its field admits; and a word that decodes is
the encoding of what it decodes to, so that no two words are one instruction. -/
def Obligations.DecodeAndEncodeAgree : Prop :=
  (∀ d : Decoded, isWord d.i = true → ∃ w, encode d = some w ∧ decodeWord w = .ok d)
    ∧ ∀ (w : W32) (d : Decoded), decodeWord w = .ok d → isWord d.i = true ∧ encode d = some w
end

