-- ==== Sys2Proof/Laws/Core.lean ====
section
/-!
SUPPORT. What each named update of a core leaves as it was: one lemma for each field.
-/
namespace Sys2Proof.Machine

/-! ## `retire` -/

@[simp] theorem Core.retire_pl (c : Core) : (c.retire).pl = c.pl := rfl
@[simp] theorem Core.retire_check (c : Core) : (c.retire).check = c.check := rfl
@[simp] theorem Core.retire_dzt (c : Core) : (c.retire).dzt = c.dzt := rfl
@[simp] theorem Core.retire_ctxid (c : Core) : (c.retire).ctxid = c.ctxid := rfl
@[simp] theorem Core.retire_region (c : Core) : (c.retire).region = c.region := rfl
@[simp] theorem Core.retire_supv (c : Core) : (c.retire).supv = c.supv := rfl
@[simp] theorem Core.retire_ternbad (c : Core) : (c.retire).ternbad = c.ternbad := rfl
@[simp] theorem Core.retire_tvec (c : Core) : (c.retire).tvec = c.tvec := rfl
@[simp] theorem Core.retire_tcause (c : Core) : (c.retire).tcause = c.tcause := rfl
@[simp] theorem Core.retire_tval (c : Core) : (c.retire).tval = c.tval := rfl
@[simp] theorem Core.retire_tpc (c : Core) : (c.retire).tpc = c.tpc := rfl
@[simp] theorem Core.retire_sscratch (c : Core) : (c.retire).sscratch = c.sscratch := rfl
@[simp] theorem Core.retire_mvec (c : Core) : (c.retire).mvec = c.mvec := rfl
@[simp] theorem Core.retire_mscratch (c : Core) : (c.retire).mscratch = c.mscratch := rfl
@[simp] theorem Core.retire_run (c : Core) : (c.retire).run = c.run := rfl
@[simp] theorem Core.retire_iss (c : Core) : (c.retire).iss = c.iss := rfl
@[simp] theorem Core.retire_txn (c : Core) : (c.retire).txn = c.txn := rfl
@[simp] theorem Core.retire_ready (c : Core) : (c.retire).ready = c.ready := rfl
@[simp] theorem Core.retire_fpark (c : Core) : (c.retire).fpark = c.fpark := rfl
@[simp] theorem Core.retire_silent (c : Core) : (c.retire).silent = c.silent := rfl
@[simp] theorem Core.retire_gpark (c : Core) : (c.retire).gpark = c.gpark := rfl
@[simp] theorem Core.retire_flagHist (c : Core) : (c.retire).flagHist = c.flagHist := rfl
@[simp] theorem Core.retire_nextTag (c : Core) : (c.retire).nextTag = c.nextTag := rfl
@[simp] theorem Core.retire_marked (c : Core) : (c.retire).marked = c.marked := rfl
@[simp] theorem Core.retire_yreq (c : Core) : (c.retire).yreq = c.yreq := rfl
@[simp] theorem Core.retire_preempt (c : Core) : (c.retire).preempt = c.preempt := rfl
@[simp] theorem Core.retire_events (c : Core) : (c.retire).events = c.events := rfl
@[simp] theorem Core.retire_idleAt (c : Core) : (c.retire).idleAt = c.idleAt := rfl
@[simp] theorem Core.retire_mem (c : Core) : (c.retire).mem = c.mem := rfl
@[simp] theorem Core.retire_pushes (c : Core) : (c.retire).pushes = c.pushes := rfl
@[simp] theorem Core.retire_plb (c : Core) : (c.retire).plb = c.plb := rfl
@[simp] theorem Core.retire_pred (c : Core) : (c.retire).pred = c.pred := rfl
@[simp] theorem Core.retire_fwd (c : Core) : (c.retire).fwd = c.fwd := rfl
@[simp] theorem Core.retire_icache (c : Core) : (c.retire).icache = c.icache := rfl
@[simp] theorem Core.retire_code (c : Core) : (c.retire).code = c.code := rfl
@[simp] theorem Core.retire_replay (c : Core) : (c.retire).replay = c.replay := rfl
@[simp] theorem Core.retire_reissued (c : Core) : (c.retire).reissued = c.reissued := rfl
@[simp] theorem Core.retire_later (c : Core) : (c.retire).later = c.later := rfl
@[simp] theorem Core.retire_acquired (c : Core) : (c.retire).acquired = c.acquired := rfl
@[simp] theorem Core.retire_inbox (c : Core) : (c.retire).inbox = c.inbox := rfl
@[simp] theorem Core.retire_credits (c : Core) : (c.retire).credits = c.credits := rfl
@[simp] theorem Core.retire_mcsts (c : Core) : (c.retire).mcsts = c.mcsts := rfl
@[simp] theorem Core.retire_watch (c : Core) : (c.retire).watch = c.watch := rfl
@[simp] theorem Core.retire_popReq (c : Core) : (c.retire).popReq = c.popReq := rfl
@[simp] theorem Core.retire_listed (c : Core) : (c.retire).listed = c.listed := rfl
@[simp] theorem Core.retire_copyq (c : Core) : (c.retire).copyq = c.copyq := rfl
@[simp] theorem Core.retire_live (c : Core) : (c.retire).live = c.live := rfl
@[simp] theorem Core.retire_members (c : Core) : (c.retire).members = c.members := rfl
@[simp] theorem Core.retire_leader (c : Core) : (c.retire).leader = c.leader := rfl
@[simp] theorem Core.retire_lane (c : Core) : (c.retire).lane = c.lane := rfl
@[simp] theorem Core.retire_cordsz (c : Core) : (c.retire).cordsz = c.cordsz := rfl
@[simp] theorem Core.retire_tretWait (c : Core) : (c.retire).tretWait = c.tretWait := rfl
@[simp] theorem Core.retire_tretGo (c : Core) : (c.retire).tretGo = c.tretGo := rfl
@[simp] theorem Core.retire_qcount (c : Core) : (c.retire).qcount = c.qcount := rfl
@[simp] theorem Core.retire_qended (c : Core) : (c.retire).qended = c.qended := rfl
@[simp] theorem Core.retire_qgo (c : Core) : (c.retire).qgo = c.qgo := rfl
@[simp] theorem Core.retire_heldOut (c : Core) : (c.retire).heldOut = c.heldOut := rfl
@[simp] theorem Core.retire_injVanish (c : Core) : (c.retire).injVanish = c.injVanish := rfl
@[simp] theorem Core.retire_injHold (c : Core) : (c.retire).injHold = c.injHold := rfl
@[simp] theorem Core.retire_injParity (c : Core) : (c.retire).injParity = c.injParity := rfl
@[simp] theorem Core.retire_t_s (c : Core) : (c.retire).t.s = c.t.s := rfl
@[simp] theorem Core.retire_t_v (c : Core) : (c.retire).t.v = c.t.v := rfl
@[simp] theorem Core.retire_t_p (c : Core) : (c.retire).t.p = c.t.p := rfl
@[simp] theorem Core.retire_t_h (c : Core) : (c.retire).t.h = c.t.h := rfl
@[simp] theorem Core.retire_t_w (c : Core) : (c.retire).t.w = c.t.w := rfl
@[simp] theorem Core.retire_t_fmask (c : Core) : (c.retire).t.fmask = c.t.fmask := rfl
@[simp] theorem Core.retire_t_flags (c : Core) : (c.retire).t.flags = c.t.flags := rfl
@[simp] theorem Core.retire_t_rmode (c : Core) : (c.retire).t.rmode = c.t.rmode := rfl
@[simp] theorem Core.retire_t_vtt (c : Core) : (c.retire).t.vtt = c.t.vtt := rfl
@[simp] theorem Core.retire_t_scaleb (c : Core) : (c.retire).t.scaleb = c.t.scaleb := rfl
@[simp] theorem Core.retire_t_homepol (c : Core) : (c.retire).t.homepol = c.t.homepol := rfl
@[simp] theorem Core.retire_t_pend (c : Core) : (c.retire).t.pend = c.t.pend := rfl
@[simp] theorem Core.retire_t_pendFlags (c : Core) : (c.retire).t.pendFlags = c.t.pendFlags := rfl
@[simp] theorem Core.retire_t_div (c : Core) : (c.retire).t.div = c.t.div := rfl
@[simp] theorem Core.retire_t_draws (c : Core) : (c.retire).t.draws = c.t.draws := rfl
@[simp] theorem Core.retire_t_prio (c : Core) : (c.retire).t.prio = c.t.prio := rfl
@[simp] theorem Core.retire_t_frame (c : Core) : (c.retire).t.frame = c.t.frame := rfl
@[simp] theorem Core.retire_t_vint (c : Core) : (c.retire).t.vint = c.t.vint := rfl
@[simp] theorem Core.retire_t_run (c : Core) : (c.retire).t.run = c.t.run := rfl
@[simp] theorem Core.retire_t_gens (c : Core) : (c.retire).t.gens = c.t.gens := rfl
@[simp] theorem Core.retire_t_streams (c : Core) : (c.retire).t.streams = c.t.streams := rfl

/-! ## `hold` -/

@[simp] theorem Core.hold_pl (c : Core) : (c.hold).pl = c.pl := rfl
@[simp] theorem Core.hold_check (c : Core) : (c.hold).check = c.check := rfl
@[simp] theorem Core.hold_dzt (c : Core) : (c.hold).dzt = c.dzt := rfl
@[simp] theorem Core.hold_ctxid (c : Core) : (c.hold).ctxid = c.ctxid := rfl
@[simp] theorem Core.hold_region (c : Core) : (c.hold).region = c.region := rfl
@[simp] theorem Core.hold_supv (c : Core) : (c.hold).supv = c.supv := rfl
@[simp] theorem Core.hold_ternbad (c : Core) : (c.hold).ternbad = c.ternbad := rfl
@[simp] theorem Core.hold_tvec (c : Core) : (c.hold).tvec = c.tvec := rfl
@[simp] theorem Core.hold_tcause (c : Core) : (c.hold).tcause = c.tcause := rfl
@[simp] theorem Core.hold_tval (c : Core) : (c.hold).tval = c.tval := rfl
@[simp] theorem Core.hold_tpc (c : Core) : (c.hold).tpc = c.tpc := rfl
@[simp] theorem Core.hold_sscratch (c : Core) : (c.hold).sscratch = c.sscratch := rfl
@[simp] theorem Core.hold_mvec (c : Core) : (c.hold).mvec = c.mvec := rfl
@[simp] theorem Core.hold_mscratch (c : Core) : (c.hold).mscratch = c.mscratch := rfl
@[simp] theorem Core.hold_run (c : Core) : (c.hold).run = c.run := rfl
@[simp] theorem Core.hold_iss (c : Core) : (c.hold).iss = c.iss := rfl
@[simp] theorem Core.hold_txn (c : Core) : (c.hold).txn = c.txn := rfl
@[simp] theorem Core.hold_ready (c : Core) : (c.hold).ready = c.ready := rfl
@[simp] theorem Core.hold_fpark (c : Core) : (c.hold).fpark = c.fpark := rfl
@[simp] theorem Core.hold_silent (c : Core) : (c.hold).silent = c.silent := rfl
@[simp] theorem Core.hold_gpark (c : Core) : (c.hold).gpark = c.gpark := rfl
@[simp] theorem Core.hold_flagHist (c : Core) : (c.hold).flagHist = c.flagHist := rfl
@[simp] theorem Core.hold_nextTag (c : Core) : (c.hold).nextTag = c.nextTag := rfl
@[simp] theorem Core.hold_marked (c : Core) : (c.hold).marked = c.marked := rfl
@[simp] theorem Core.hold_yreq (c : Core) : (c.hold).yreq = c.yreq := rfl
@[simp] theorem Core.hold_preempt (c : Core) : (c.hold).preempt = c.preempt := rfl
@[simp] theorem Core.hold_events (c : Core) : (c.hold).events = c.events := rfl
@[simp] theorem Core.hold_idleAt (c : Core) : (c.hold).idleAt = c.idleAt := rfl
@[simp] theorem Core.hold_mem (c : Core) : (c.hold).mem = c.mem := rfl
@[simp] theorem Core.hold_pushes (c : Core) : (c.hold).pushes = c.pushes := rfl
@[simp] theorem Core.hold_plb (c : Core) : (c.hold).plb = c.plb := rfl
@[simp] theorem Core.hold_pred (c : Core) : (c.hold).pred = c.pred := rfl
@[simp] theorem Core.hold_fwd (c : Core) : (c.hold).fwd = c.fwd := rfl
@[simp] theorem Core.hold_icache (c : Core) : (c.hold).icache = c.icache := rfl
@[simp] theorem Core.hold_code (c : Core) : (c.hold).code = c.code := rfl
@[simp] theorem Core.hold_replay (c : Core) : (c.hold).replay = c.replay := rfl
@[simp] theorem Core.hold_reissued (c : Core) : (c.hold).reissued = c.reissued := rfl
@[simp] theorem Core.hold_later (c : Core) : (c.hold).later = c.later := rfl
@[simp] theorem Core.hold_acquired (c : Core) : (c.hold).acquired = c.acquired := rfl
@[simp] theorem Core.hold_inbox (c : Core) : (c.hold).inbox = c.inbox := rfl
@[simp] theorem Core.hold_credits (c : Core) : (c.hold).credits = c.credits := rfl
@[simp] theorem Core.hold_mcsts (c : Core) : (c.hold).mcsts = c.mcsts := rfl
@[simp] theorem Core.hold_watch (c : Core) : (c.hold).watch = c.watch := rfl
@[simp] theorem Core.hold_popReq (c : Core) : (c.hold).popReq = c.popReq := rfl
@[simp] theorem Core.hold_listed (c : Core) : (c.hold).listed = c.listed := rfl
@[simp] theorem Core.hold_copyq (c : Core) : (c.hold).copyq = c.copyq := rfl
@[simp] theorem Core.hold_live (c : Core) : (c.hold).live = c.live := rfl
@[simp] theorem Core.hold_members (c : Core) : (c.hold).members = c.members := rfl
@[simp] theorem Core.hold_leader (c : Core) : (c.hold).leader = c.leader := rfl
@[simp] theorem Core.hold_lane (c : Core) : (c.hold).lane = c.lane := rfl
@[simp] theorem Core.hold_cordsz (c : Core) : (c.hold).cordsz = c.cordsz := rfl
@[simp] theorem Core.hold_tretWait (c : Core) : (c.hold).tretWait = c.tretWait := rfl
@[simp] theorem Core.hold_tretGo (c : Core) : (c.hold).tretGo = c.tretGo := rfl
@[simp] theorem Core.hold_qcount (c : Core) : (c.hold).qcount = c.qcount := rfl
@[simp] theorem Core.hold_qended (c : Core) : (c.hold).qended = c.qended := rfl
@[simp] theorem Core.hold_qgo (c : Core) : (c.hold).qgo = c.qgo := rfl
@[simp] theorem Core.hold_heldOut (c : Core) : (c.hold).heldOut = c.heldOut := rfl
@[simp] theorem Core.hold_injVanish (c : Core) : (c.hold).injVanish = c.injVanish := rfl
@[simp] theorem Core.hold_injHold (c : Core) : (c.hold).injHold = c.injHold := rfl
@[simp] theorem Core.hold_injParity (c : Core) : (c.hold).injParity = c.injParity := rfl
@[simp] theorem Core.hold_t_s (c : Core) : (c.hold).t.s = c.t.s := rfl
@[simp] theorem Core.hold_t_v (c : Core) : (c.hold).t.v = c.t.v := rfl
@[simp] theorem Core.hold_t_p (c : Core) : (c.hold).t.p = c.t.p := rfl
@[simp] theorem Core.hold_t_h (c : Core) : (c.hold).t.h = c.t.h := rfl
@[simp] theorem Core.hold_t_w (c : Core) : (c.hold).t.w = c.t.w := rfl
@[simp] theorem Core.hold_t_fmask (c : Core) : (c.hold).t.fmask = c.t.fmask := rfl
@[simp] theorem Core.hold_t_flags (c : Core) : (c.hold).t.flags = c.t.flags := rfl
@[simp] theorem Core.hold_t_rmode (c : Core) : (c.hold).t.rmode = c.t.rmode := rfl
@[simp] theorem Core.hold_t_vtt (c : Core) : (c.hold).t.vtt = c.t.vtt := rfl
@[simp] theorem Core.hold_t_scaleb (c : Core) : (c.hold).t.scaleb = c.t.scaleb := rfl
@[simp] theorem Core.hold_t_homepol (c : Core) : (c.hold).t.homepol = c.t.homepol := rfl
@[simp] theorem Core.hold_t_pend (c : Core) : (c.hold).t.pend = c.t.pend := rfl
@[simp] theorem Core.hold_t_pendFlags (c : Core) : (c.hold).t.pendFlags = c.t.pendFlags := rfl
@[simp] theorem Core.hold_t_div (c : Core) : (c.hold).t.div = c.t.div := rfl
@[simp] theorem Core.hold_t_draws (c : Core) : (c.hold).t.draws = c.t.draws := rfl
@[simp] theorem Core.hold_t_prio (c : Core) : (c.hold).t.prio = c.t.prio := rfl
@[simp] theorem Core.hold_t_frame (c : Core) : (c.hold).t.frame = c.t.frame := rfl
@[simp] theorem Core.hold_t_vint (c : Core) : (c.hold).t.vint = c.t.vint := rfl
@[simp] theorem Core.hold_t_run (c : Core) : (c.hold).t.run = c.t.run := rfl
@[simp] theorem Core.hold_t_gens (c : Core) : (c.hold).t.gens = c.t.gens := rfl
@[simp] theorem Core.hold_t_streams (c : Core) : (c.hold).t.streams = c.t.streams := rfl

/-! ## `jump` -/

@[simp] theorem Core.jump_pl (c : Core) (pc : W64) : (c.jump pc).pl = c.pl := rfl
@[simp] theorem Core.jump_check (c : Core) (pc : W64) : (c.jump pc).check = c.check := rfl
@[simp] theorem Core.jump_dzt (c : Core) (pc : W64) : (c.jump pc).dzt = c.dzt := rfl
@[simp] theorem Core.jump_ctxid (c : Core) (pc : W64) : (c.jump pc).ctxid = c.ctxid := rfl
@[simp] theorem Core.jump_region (c : Core) (pc : W64) : (c.jump pc).region = c.region := rfl
@[simp] theorem Core.jump_supv (c : Core) (pc : W64) : (c.jump pc).supv = c.supv := rfl
@[simp] theorem Core.jump_ternbad (c : Core) (pc : W64) : (c.jump pc).ternbad = c.ternbad := rfl
@[simp] theorem Core.jump_instret (c : Core) (pc : W64) : (c.jump pc).instret = c.instret := rfl
@[simp] theorem Core.jump_tvec (c : Core) (pc : W64) : (c.jump pc).tvec = c.tvec := rfl
@[simp] theorem Core.jump_tcause (c : Core) (pc : W64) : (c.jump pc).tcause = c.tcause := rfl
@[simp] theorem Core.jump_tval (c : Core) (pc : W64) : (c.jump pc).tval = c.tval := rfl
@[simp] theorem Core.jump_tpc (c : Core) (pc : W64) : (c.jump pc).tpc = c.tpc := rfl
@[simp] theorem Core.jump_sscratch (c : Core) (pc : W64) : (c.jump pc).sscratch = c.sscratch := rfl
@[simp] theorem Core.jump_mvec (c : Core) (pc : W64) : (c.jump pc).mvec = c.mvec := rfl
@[simp] theorem Core.jump_mscratch (c : Core) (pc : W64) : (c.jump pc).mscratch = c.mscratch := rfl
@[simp] theorem Core.jump_run (c : Core) (pc : W64) : (c.jump pc).run = c.run := rfl
@[simp] theorem Core.jump_iss (c : Core) (pc : W64) : (c.jump pc).iss = c.iss := rfl
@[simp] theorem Core.jump_slot (c : Core) (pc : W64) : (c.jump pc).slot = c.slot := rfl
@[simp] theorem Core.jump_txn (c : Core) (pc : W64) : (c.jump pc).txn = c.txn := rfl
@[simp] theorem Core.jump_ready (c : Core) (pc : W64) : (c.jump pc).ready = c.ready := rfl
@[simp] theorem Core.jump_fpark (c : Core) (pc : W64) : (c.jump pc).fpark = c.fpark := rfl
@[simp] theorem Core.jump_silent (c : Core) (pc : W64) : (c.jump pc).silent = c.silent := rfl
@[simp] theorem Core.jump_gpark (c : Core) (pc : W64) : (c.jump pc).gpark = c.gpark := rfl
@[simp] theorem Core.jump_flagHist (c : Core) (pc : W64) : (c.jump pc).flagHist = c.flagHist := rfl
@[simp] theorem Core.jump_nextTag (c : Core) (pc : W64) : (c.jump pc).nextTag = c.nextTag := rfl
@[simp] theorem Core.jump_marked (c : Core) (pc : W64) : (c.jump pc).marked = c.marked := rfl
@[simp] theorem Core.jump_yreq (c : Core) (pc : W64) : (c.jump pc).yreq = c.yreq := rfl
@[simp] theorem Core.jump_preempt (c : Core) (pc : W64) : (c.jump pc).preempt = c.preempt := rfl
@[simp] theorem Core.jump_events (c : Core) (pc : W64) : (c.jump pc).events = c.events := rfl
@[simp] theorem Core.jump_idleAt (c : Core) (pc : W64) : (c.jump pc).idleAt = c.idleAt := rfl
@[simp] theorem Core.jump_mem (c : Core) (pc : W64) : (c.jump pc).mem = c.mem := rfl
@[simp] theorem Core.jump_pushes (c : Core) (pc : W64) : (c.jump pc).pushes = c.pushes := rfl
@[simp] theorem Core.jump_plb (c : Core) (pc : W64) : (c.jump pc).plb = c.plb := rfl
@[simp] theorem Core.jump_pred (c : Core) (pc : W64) : (c.jump pc).pred = c.pred := rfl
@[simp] theorem Core.jump_fwd (c : Core) (pc : W64) : (c.jump pc).fwd = c.fwd := rfl
@[simp] theorem Core.jump_icache (c : Core) (pc : W64) : (c.jump pc).icache = c.icache := rfl
@[simp] theorem Core.jump_code (c : Core) (pc : W64) : (c.jump pc).code = c.code := rfl
@[simp] theorem Core.jump_replay (c : Core) (pc : W64) : (c.jump pc).replay = c.replay := rfl
@[simp] theorem Core.jump_reissued (c : Core) (pc : W64) : (c.jump pc).reissued = c.reissued := rfl
@[simp] theorem Core.jump_later (c : Core) (pc : W64) : (c.jump pc).later = c.later := rfl
@[simp] theorem Core.jump_acquired (c : Core) (pc : W64) : (c.jump pc).acquired = c.acquired := rfl
@[simp] theorem Core.jump_inbox (c : Core) (pc : W64) : (c.jump pc).inbox = c.inbox := rfl
@[simp] theorem Core.jump_credits (c : Core) (pc : W64) : (c.jump pc).credits = c.credits := rfl
@[simp] theorem Core.jump_mcsts (c : Core) (pc : W64) : (c.jump pc).mcsts = c.mcsts := rfl
@[simp] theorem Core.jump_watch (c : Core) (pc : W64) : (c.jump pc).watch = c.watch := rfl
@[simp] theorem Core.jump_popReq (c : Core) (pc : W64) : (c.jump pc).popReq = c.popReq := rfl
@[simp] theorem Core.jump_listed (c : Core) (pc : W64) : (c.jump pc).listed = c.listed := rfl
@[simp] theorem Core.jump_copyq (c : Core) (pc : W64) : (c.jump pc).copyq = c.copyq := rfl
@[simp] theorem Core.jump_live (c : Core) (pc : W64) : (c.jump pc).live = c.live := rfl
@[simp] theorem Core.jump_members (c : Core) (pc : W64) : (c.jump pc).members = c.members := rfl
@[simp] theorem Core.jump_leader (c : Core) (pc : W64) : (c.jump pc).leader = c.leader := rfl
@[simp] theorem Core.jump_lane (c : Core) (pc : W64) : (c.jump pc).lane = c.lane := rfl
@[simp] theorem Core.jump_cordsz (c : Core) (pc : W64) : (c.jump pc).cordsz = c.cordsz := rfl
@[simp] theorem Core.jump_tretWait (c : Core) (pc : W64) : (c.jump pc).tretWait = c.tretWait := rfl
@[simp] theorem Core.jump_tretGo (c : Core) (pc : W64) : (c.jump pc).tretGo = c.tretGo := rfl
@[simp] theorem Core.jump_qcount (c : Core) (pc : W64) : (c.jump pc).qcount = c.qcount := rfl
@[simp] theorem Core.jump_qended (c : Core) (pc : W64) : (c.jump pc).qended = c.qended := rfl
@[simp] theorem Core.jump_qgo (c : Core) (pc : W64) : (c.jump pc).qgo = c.qgo := rfl
@[simp] theorem Core.jump_heldOut (c : Core) (pc : W64) : (c.jump pc).heldOut = c.heldOut := rfl
@[simp] theorem Core.jump_injVanish (c : Core) (pc : W64) : (c.jump pc).injVanish = c.injVanish := rfl
@[simp] theorem Core.jump_injHold (c : Core) (pc : W64) : (c.jump pc).injHold = c.injHold := rfl
@[simp] theorem Core.jump_injParity (c : Core) (pc : W64) : (c.jump pc).injParity = c.injParity := rfl
@[simp] theorem Core.jump_t_s (c : Core) (pc : W64) : (c.jump pc).t.s = c.t.s := rfl
@[simp] theorem Core.jump_t_v (c : Core) (pc : W64) : (c.jump pc).t.v = c.t.v := rfl
@[simp] theorem Core.jump_t_p (c : Core) (pc : W64) : (c.jump pc).t.p = c.t.p := rfl
@[simp] theorem Core.jump_t_h (c : Core) (pc : W64) : (c.jump pc).t.h = c.t.h := rfl
@[simp] theorem Core.jump_t_w (c : Core) (pc : W64) : (c.jump pc).t.w = c.t.w := rfl
@[simp] theorem Core.jump_t_fmask (c : Core) (pc : W64) : (c.jump pc).t.fmask = c.t.fmask := rfl
@[simp] theorem Core.jump_t_flags (c : Core) (pc : W64) : (c.jump pc).t.flags = c.t.flags := rfl
@[simp] theorem Core.jump_t_rmode (c : Core) (pc : W64) : (c.jump pc).t.rmode = c.t.rmode := rfl
@[simp] theorem Core.jump_t_vtt (c : Core) (pc : W64) : (c.jump pc).t.vtt = c.t.vtt := rfl
@[simp] theorem Core.jump_t_scaleb (c : Core) (pc : W64) : (c.jump pc).t.scaleb = c.t.scaleb := rfl
@[simp] theorem Core.jump_t_homepol (c : Core) (pc : W64) : (c.jump pc).t.homepol = c.t.homepol := rfl
@[simp] theorem Core.jump_t_nom (c : Core) (pc : W64) : (c.jump pc).t.nom = c.t.nom := rfl
@[simp] theorem Core.jump_t_pend (c : Core) (pc : W64) : (c.jump pc).t.pend = c.t.pend := rfl
@[simp] theorem Core.jump_t_pendFlags (c : Core) (pc : W64) : (c.jump pc).t.pendFlags = c.t.pendFlags := rfl
@[simp] theorem Core.jump_t_div (c : Core) (pc : W64) : (c.jump pc).t.div = c.t.div := rfl
@[simp] theorem Core.jump_t_draws (c : Core) (pc : W64) : (c.jump pc).t.draws = c.t.draws := rfl
@[simp] theorem Core.jump_t_prio (c : Core) (pc : W64) : (c.jump pc).t.prio = c.t.prio := rfl
@[simp] theorem Core.jump_t_frame (c : Core) (pc : W64) : (c.jump pc).t.frame = c.t.frame := rfl
@[simp] theorem Core.jump_t_vint (c : Core) (pc : W64) : (c.jump pc).t.vint = c.t.vint := rfl
@[simp] theorem Core.jump_t_run (c : Core) (pc : W64) : (c.jump pc).t.run = c.t.run := rfl
@[simp] theorem Core.jump_t_gens (c : Core) (pc : W64) : (c.jump pc).t.gens = c.t.gens := rfl
@[simp] theorem Core.jump_t_streams (c : Core) (pc : W64) : (c.jump pc).t.streams = c.t.streams := rfl

/-! ## `push` -/

@[simp] theorem Core.push_pl (c : Core) (x : Access) : (c.push x).pl = c.pl := rfl
@[simp] theorem Core.push_check (c : Core) (x : Access) : (c.push x).check = c.check := rfl
@[simp] theorem Core.push_dzt (c : Core) (x : Access) : (c.push x).dzt = c.dzt := rfl
@[simp] theorem Core.push_ctxid (c : Core) (x : Access) : (c.push x).ctxid = c.ctxid := rfl
@[simp] theorem Core.push_region (c : Core) (x : Access) : (c.push x).region = c.region := rfl
@[simp] theorem Core.push_supv (c : Core) (x : Access) : (c.push x).supv = c.supv := rfl
@[simp] theorem Core.push_ternbad (c : Core) (x : Access) : (c.push x).ternbad = c.ternbad := rfl
@[simp] theorem Core.push_instret (c : Core) (x : Access) : (c.push x).instret = c.instret := rfl
@[simp] theorem Core.push_tvec (c : Core) (x : Access) : (c.push x).tvec = c.tvec := rfl
@[simp] theorem Core.push_tcause (c : Core) (x : Access) : (c.push x).tcause = c.tcause := rfl
@[simp] theorem Core.push_tval (c : Core) (x : Access) : (c.push x).tval = c.tval := rfl
@[simp] theorem Core.push_tpc (c : Core) (x : Access) : (c.push x).tpc = c.tpc := rfl
@[simp] theorem Core.push_sscratch (c : Core) (x : Access) : (c.push x).sscratch = c.sscratch := rfl
@[simp] theorem Core.push_mvec (c : Core) (x : Access) : (c.push x).mvec = c.mvec := rfl
@[simp] theorem Core.push_mscratch (c : Core) (x : Access) : (c.push x).mscratch = c.mscratch := rfl
@[simp] theorem Core.push_run (c : Core) (x : Access) : (c.push x).run = c.run := rfl
@[simp] theorem Core.push_iss (c : Core) (x : Access) : (c.push x).iss = c.iss := rfl
@[simp] theorem Core.push_slot (c : Core) (x : Access) : (c.push x).slot = c.slot := rfl
@[simp] theorem Core.push_txn (c : Core) (x : Access) : (c.push x).txn = c.txn := rfl
@[simp] theorem Core.push_ready (c : Core) (x : Access) : (c.push x).ready = c.ready := rfl
@[simp] theorem Core.push_fpark (c : Core) (x : Access) : (c.push x).fpark = c.fpark := rfl
@[simp] theorem Core.push_silent (c : Core) (x : Access) : (c.push x).silent = c.silent := rfl
@[simp] theorem Core.push_gpark (c : Core) (x : Access) : (c.push x).gpark = c.gpark := rfl
@[simp] theorem Core.push_flagHist (c : Core) (x : Access) : (c.push x).flagHist = c.flagHist := rfl
@[simp] theorem Core.push_marked (c : Core) (x : Access) : (c.push x).marked = c.marked := rfl
@[simp] theorem Core.push_yreq (c : Core) (x : Access) : (c.push x).yreq = c.yreq := rfl
@[simp] theorem Core.push_preempt (c : Core) (x : Access) : (c.push x).preempt = c.preempt := rfl
@[simp] theorem Core.push_events (c : Core) (x : Access) : (c.push x).events = c.events := rfl
@[simp] theorem Core.push_idleAt (c : Core) (x : Access) : (c.push x).idleAt = c.idleAt := rfl
@[simp] theorem Core.push_pushes (c : Core) (x : Access) : (c.push x).pushes = c.pushes := rfl
@[simp] theorem Core.push_plb (c : Core) (x : Access) : (c.push x).plb = c.plb := rfl
@[simp] theorem Core.push_pred (c : Core) (x : Access) : (c.push x).pred = c.pred := rfl
@[simp] theorem Core.push_fwd (c : Core) (x : Access) : (c.push x).fwd = c.fwd := rfl
@[simp] theorem Core.push_icache (c : Core) (x : Access) : (c.push x).icache = c.icache := rfl
@[simp] theorem Core.push_code (c : Core) (x : Access) : (c.push x).code = c.code := rfl
@[simp] theorem Core.push_replay (c : Core) (x : Access) : (c.push x).replay = c.replay := rfl
@[simp] theorem Core.push_reissued (c : Core) (x : Access) : (c.push x).reissued = c.reissued := rfl
@[simp] theorem Core.push_later (c : Core) (x : Access) : (c.push x).later = c.later := rfl
@[simp] theorem Core.push_acquired (c : Core) (x : Access) : (c.push x).acquired = c.acquired := rfl
@[simp] theorem Core.push_inbox (c : Core) (x : Access) : (c.push x).inbox = c.inbox := rfl
@[simp] theorem Core.push_credits (c : Core) (x : Access) : (c.push x).credits = c.credits := rfl
@[simp] theorem Core.push_mcsts (c : Core) (x : Access) : (c.push x).mcsts = c.mcsts := rfl
@[simp] theorem Core.push_watch (c : Core) (x : Access) : (c.push x).watch = c.watch := rfl
@[simp] theorem Core.push_popReq (c : Core) (x : Access) : (c.push x).popReq = c.popReq := rfl
@[simp] theorem Core.push_listed (c : Core) (x : Access) : (c.push x).listed = c.listed := rfl
@[simp] theorem Core.push_copyq (c : Core) (x : Access) : (c.push x).copyq = c.copyq := rfl
@[simp] theorem Core.push_live (c : Core) (x : Access) : (c.push x).live = c.live := rfl
@[simp] theorem Core.push_members (c : Core) (x : Access) : (c.push x).members = c.members := rfl
@[simp] theorem Core.push_leader (c : Core) (x : Access) : (c.push x).leader = c.leader := rfl
@[simp] theorem Core.push_lane (c : Core) (x : Access) : (c.push x).lane = c.lane := rfl
@[simp] theorem Core.push_cordsz (c : Core) (x : Access) : (c.push x).cordsz = c.cordsz := rfl
@[simp] theorem Core.push_tretWait (c : Core) (x : Access) : (c.push x).tretWait = c.tretWait := rfl
@[simp] theorem Core.push_tretGo (c : Core) (x : Access) : (c.push x).tretGo = c.tretGo := rfl
@[simp] theorem Core.push_qcount (c : Core) (x : Access) : (c.push x).qcount = c.qcount := rfl
@[simp] theorem Core.push_qended (c : Core) (x : Access) : (c.push x).qended = c.qended := rfl
@[simp] theorem Core.push_qgo (c : Core) (x : Access) : (c.push x).qgo = c.qgo := rfl
@[simp] theorem Core.push_heldOut (c : Core) (x : Access) : (c.push x).heldOut = c.heldOut := rfl
@[simp] theorem Core.push_injVanish (c : Core) (x : Access) : (c.push x).injVanish = c.injVanish := rfl
@[simp] theorem Core.push_injHold (c : Core) (x : Access) : (c.push x).injHold = c.injHold := rfl
@[simp] theorem Core.push_injParity (c : Core) (x : Access) : (c.push x).injParity = c.injParity := rfl
@[simp] theorem Core.push_t (c : Core) (x : Access) : (c.push x).t = c.t := rfl

/-! ## `out` -/

@[simp] theorem Core.out_pl (c : Core) (f : RFile) (r : Nat) (x : W512) (n : Nat) : (c.out f r x n).pl = c.pl := rfl
@[simp] theorem Core.out_check (c : Core) (f : RFile) (r : Nat) (x : W512) (n : Nat) : (c.out f r x n).check = c.check := rfl
@[simp] theorem Core.out_dzt (c : Core) (f : RFile) (r : Nat) (x : W512) (n : Nat) : (c.out f r x n).dzt = c.dzt := rfl
@[simp] theorem Core.out_ctxid (c : Core) (f : RFile) (r : Nat) (x : W512) (n : Nat) : (c.out f r x n).ctxid = c.ctxid := rfl
@[simp] theorem Core.out_region (c : Core) (f : RFile) (r : Nat) (x : W512) (n : Nat) : (c.out f r x n).region = c.region := rfl
@[simp] theorem Core.out_supv (c : Core) (f : RFile) (r : Nat) (x : W512) (n : Nat) : (c.out f r x n).supv = c.supv := rfl
@[simp] theorem Core.out_ternbad (c : Core) (f : RFile) (r : Nat) (x : W512) (n : Nat) : (c.out f r x n).ternbad = c.ternbad := rfl
@[simp] theorem Core.out_instret (c : Core) (f : RFile) (r : Nat) (x : W512) (n : Nat) : (c.out f r x n).instret = c.instret := rfl
@[simp] theorem Core.out_tvec (c : Core) (f : RFile) (r : Nat) (x : W512) (n : Nat) : (c.out f r x n).tvec = c.tvec := rfl
@[simp] theorem Core.out_tcause (c : Core) (f : RFile) (r : Nat) (x : W512) (n : Nat) : (c.out f r x n).tcause = c.tcause := rfl
@[simp] theorem Core.out_tval (c : Core) (f : RFile) (r : Nat) (x : W512) (n : Nat) : (c.out f r x n).tval = c.tval := rfl
@[simp] theorem Core.out_tpc (c : Core) (f : RFile) (r : Nat) (x : W512) (n : Nat) : (c.out f r x n).tpc = c.tpc := rfl
@[simp] theorem Core.out_sscratch (c : Core) (f : RFile) (r : Nat) (x : W512) (n : Nat) : (c.out f r x n).sscratch = c.sscratch := rfl
@[simp] theorem Core.out_mvec (c : Core) (f : RFile) (r : Nat) (x : W512) (n : Nat) : (c.out f r x n).mvec = c.mvec := rfl
@[simp] theorem Core.out_mscratch (c : Core) (f : RFile) (r : Nat) (x : W512) (n : Nat) : (c.out f r x n).mscratch = c.mscratch := rfl
@[simp] theorem Core.out_run (c : Core) (f : RFile) (r : Nat) (x : W512) (n : Nat) : (c.out f r x n).run = c.run := rfl
@[simp] theorem Core.out_iss (c : Core) (f : RFile) (r : Nat) (x : W512) (n : Nat) : (c.out f r x n).iss = c.iss := rfl
@[simp] theorem Core.out_slot (c : Core) (f : RFile) (r : Nat) (x : W512) (n : Nat) : (c.out f r x n).slot = c.slot := rfl
@[simp] theorem Core.out_txn (c : Core) (f : RFile) (r : Nat) (x : W512) (n : Nat) : (c.out f r x n).txn = c.txn := rfl
@[simp] theorem Core.out_ready (c : Core) (f : RFile) (r : Nat) (x : W512) (n : Nat) : (c.out f r x n).ready = c.ready := rfl
@[simp] theorem Core.out_fpark (c : Core) (f : RFile) (r : Nat) (x : W512) (n : Nat) : (c.out f r x n).fpark = c.fpark := rfl
@[simp] theorem Core.out_silent (c : Core) (f : RFile) (r : Nat) (x : W512) (n : Nat) : (c.out f r x n).silent = c.silent := rfl
@[simp] theorem Core.out_gpark (c : Core) (f : RFile) (r : Nat) (x : W512) (n : Nat) : (c.out f r x n).gpark = c.gpark := rfl
@[simp] theorem Core.out_flagHist (c : Core) (f : RFile) (r : Nat) (x : W512) (n : Nat) : (c.out f r x n).flagHist = c.flagHist := rfl
@[simp] theorem Core.out_nextTag (c : Core) (f : RFile) (r : Nat) (x : W512) (n : Nat) : (c.out f r x n).nextTag = c.nextTag := rfl
@[simp] theorem Core.out_marked (c : Core) (f : RFile) (r : Nat) (x : W512) (n : Nat) : (c.out f r x n).marked = c.marked := rfl
@[simp] theorem Core.out_yreq (c : Core) (f : RFile) (r : Nat) (x : W512) (n : Nat) : (c.out f r x n).yreq = c.yreq := rfl
@[simp] theorem Core.out_preempt (c : Core) (f : RFile) (r : Nat) (x : W512) (n : Nat) : (c.out f r x n).preempt = c.preempt := rfl
@[simp] theorem Core.out_events (c : Core) (f : RFile) (r : Nat) (x : W512) (n : Nat) : (c.out f r x n).events = c.events := rfl
@[simp] theorem Core.out_idleAt (c : Core) (f : RFile) (r : Nat) (x : W512) (n : Nat) : (c.out f r x n).idleAt = c.idleAt := rfl
@[simp] theorem Core.out_mem (c : Core) (f : RFile) (r : Nat) (x : W512) (n : Nat) : (c.out f r x n).mem = c.mem := rfl
@[simp] theorem Core.out_pushes (c : Core) (f : RFile) (r : Nat) (x : W512) (n : Nat) : (c.out f r x n).pushes = c.pushes := rfl
@[simp] theorem Core.out_plb (c : Core) (f : RFile) (r : Nat) (x : W512) (n : Nat) : (c.out f r x n).plb = c.plb := rfl
@[simp] theorem Core.out_pred (c : Core) (f : RFile) (r : Nat) (x : W512) (n : Nat) : (c.out f r x n).pred = c.pred := rfl
@[simp] theorem Core.out_fwd (c : Core) (f : RFile) (r : Nat) (x : W512) (n : Nat) : (c.out f r x n).fwd = c.fwd := rfl
@[simp] theorem Core.out_icache (c : Core) (f : RFile) (r : Nat) (x : W512) (n : Nat) : (c.out f r x n).icache = c.icache := rfl
@[simp] theorem Core.out_code (c : Core) (f : RFile) (r : Nat) (x : W512) (n : Nat) : (c.out f r x n).code = c.code := rfl
@[simp] theorem Core.out_replay (c : Core) (f : RFile) (r : Nat) (x : W512) (n : Nat) : (c.out f r x n).replay = c.replay := rfl
@[simp] theorem Core.out_reissued (c : Core) (f : RFile) (r : Nat) (x : W512) (n : Nat) : (c.out f r x n).reissued = c.reissued := rfl
@[simp] theorem Core.out_later (c : Core) (f : RFile) (r : Nat) (x : W512) (n : Nat) : (c.out f r x n).later = c.later := rfl
@[simp] theorem Core.out_acquired (c : Core) (f : RFile) (r : Nat) (x : W512) (n : Nat) : (c.out f r x n).acquired = c.acquired := rfl
@[simp] theorem Core.out_inbox (c : Core) (f : RFile) (r : Nat) (x : W512) (n : Nat) : (c.out f r x n).inbox = c.inbox := rfl
@[simp] theorem Core.out_credits (c : Core) (f : RFile) (r : Nat) (x : W512) (n : Nat) : (c.out f r x n).credits = c.credits := rfl
@[simp] theorem Core.out_mcsts (c : Core) (f : RFile) (r : Nat) (x : W512) (n : Nat) : (c.out f r x n).mcsts = c.mcsts := rfl
@[simp] theorem Core.out_watch (c : Core) (f : RFile) (r : Nat) (x : W512) (n : Nat) : (c.out f r x n).watch = c.watch := rfl
@[simp] theorem Core.out_popReq (c : Core) (f : RFile) (r : Nat) (x : W512) (n : Nat) : (c.out f r x n).popReq = c.popReq := rfl
@[simp] theorem Core.out_listed (c : Core) (f : RFile) (r : Nat) (x : W512) (n : Nat) : (c.out f r x n).listed = c.listed := rfl
@[simp] theorem Core.out_copyq (c : Core) (f : RFile) (r : Nat) (x : W512) (n : Nat) : (c.out f r x n).copyq = c.copyq := rfl
@[simp] theorem Core.out_live (c : Core) (f : RFile) (r : Nat) (x : W512) (n : Nat) : (c.out f r x n).live = c.live := rfl
@[simp] theorem Core.out_members (c : Core) (f : RFile) (r : Nat) (x : W512) (n : Nat) : (c.out f r x n).members = c.members := rfl
@[simp] theorem Core.out_leader (c : Core) (f : RFile) (r : Nat) (x : W512) (n : Nat) : (c.out f r x n).leader = c.leader := rfl
@[simp] theorem Core.out_lane (c : Core) (f : RFile) (r : Nat) (x : W512) (n : Nat) : (c.out f r x n).lane = c.lane := rfl
@[simp] theorem Core.out_cordsz (c : Core) (f : RFile) (r : Nat) (x : W512) (n : Nat) : (c.out f r x n).cordsz = c.cordsz := rfl
@[simp] theorem Core.out_tretWait (c : Core) (f : RFile) (r : Nat) (x : W512) (n : Nat) : (c.out f r x n).tretWait = c.tretWait := rfl
@[simp] theorem Core.out_tretGo (c : Core) (f : RFile) (r : Nat) (x : W512) (n : Nat) : (c.out f r x n).tretGo = c.tretGo := rfl
@[simp] theorem Core.out_qcount (c : Core) (f : RFile) (r : Nat) (x : W512) (n : Nat) : (c.out f r x n).qcount = c.qcount := rfl
@[simp] theorem Core.out_qended (c : Core) (f : RFile) (r : Nat) (x : W512) (n : Nat) : (c.out f r x n).qended = c.qended := rfl
@[simp] theorem Core.out_qgo (c : Core) (f : RFile) (r : Nat) (x : W512) (n : Nat) : (c.out f r x n).qgo = c.qgo := rfl
@[simp] theorem Core.out_heldOut (c : Core) (f : RFile) (r : Nat) (x : W512) (n : Nat) : (c.out f r x n).heldOut = c.heldOut := rfl
@[simp] theorem Core.out_injVanish (c : Core) (f : RFile) (r : Nat) (x : W512) (n : Nat) : (c.out f r x n).injVanish = c.injVanish := rfl
@[simp] theorem Core.out_injHold (c : Core) (f : RFile) (r : Nat) (x : W512) (n : Nat) : (c.out f r x n).injHold = c.injHold := rfl
@[simp] theorem Core.out_injParity (c : Core) (f : RFile) (r : Nat) (x : W512) (n : Nat) : (c.out f r x n).injParity = c.injParity := rfl

/-! ## `expect` -/

@[simp] theorem Core.expect_pl (c : Core) (f : RFile) (r n : Nat) : (c.expect f r n).pl = c.pl := rfl
@[simp] theorem Core.expect_check (c : Core) (f : RFile) (r n : Nat) : (c.expect f r n).check = c.check := rfl
@[simp] theorem Core.expect_dzt (c : Core) (f : RFile) (r n : Nat) : (c.expect f r n).dzt = c.dzt := rfl
@[simp] theorem Core.expect_ctxid (c : Core) (f : RFile) (r n : Nat) : (c.expect f r n).ctxid = c.ctxid := rfl
@[simp] theorem Core.expect_region (c : Core) (f : RFile) (r n : Nat) : (c.expect f r n).region = c.region := rfl
@[simp] theorem Core.expect_supv (c : Core) (f : RFile) (r n : Nat) : (c.expect f r n).supv = c.supv := rfl
@[simp] theorem Core.expect_ternbad (c : Core) (f : RFile) (r n : Nat) : (c.expect f r n).ternbad = c.ternbad := rfl
@[simp] theorem Core.expect_instret (c : Core) (f : RFile) (r n : Nat) : (c.expect f r n).instret = c.instret := rfl
@[simp] theorem Core.expect_tvec (c : Core) (f : RFile) (r n : Nat) : (c.expect f r n).tvec = c.tvec := rfl
@[simp] theorem Core.expect_tcause (c : Core) (f : RFile) (r n : Nat) : (c.expect f r n).tcause = c.tcause := rfl
@[simp] theorem Core.expect_tval (c : Core) (f : RFile) (r n : Nat) : (c.expect f r n).tval = c.tval := rfl
@[simp] theorem Core.expect_tpc (c : Core) (f : RFile) (r n : Nat) : (c.expect f r n).tpc = c.tpc := rfl
@[simp] theorem Core.expect_sscratch (c : Core) (f : RFile) (r n : Nat) : (c.expect f r n).sscratch = c.sscratch := rfl
@[simp] theorem Core.expect_mvec (c : Core) (f : RFile) (r n : Nat) : (c.expect f r n).mvec = c.mvec := rfl
@[simp] theorem Core.expect_mscratch (c : Core) (f : RFile) (r n : Nat) : (c.expect f r n).mscratch = c.mscratch := rfl
@[simp] theorem Core.expect_run (c : Core) (f : RFile) (r n : Nat) : (c.expect f r n).run = c.run := rfl
@[simp] theorem Core.expect_iss (c : Core) (f : RFile) (r n : Nat) : (c.expect f r n).iss = c.iss := rfl
@[simp] theorem Core.expect_slot (c : Core) (f : RFile) (r n : Nat) : (c.expect f r n).slot = c.slot := rfl
@[simp] theorem Core.expect_txn (c : Core) (f : RFile) (r n : Nat) : (c.expect f r n).txn = c.txn := rfl
@[simp] theorem Core.expect_ready (c : Core) (f : RFile) (r n : Nat) : (c.expect f r n).ready = c.ready := rfl
@[simp] theorem Core.expect_fpark (c : Core) (f : RFile) (r n : Nat) : (c.expect f r n).fpark = c.fpark := rfl
@[simp] theorem Core.expect_silent (c : Core) (f : RFile) (r n : Nat) : (c.expect f r n).silent = c.silent := rfl
@[simp] theorem Core.expect_gpark (c : Core) (f : RFile) (r n : Nat) : (c.expect f r n).gpark = c.gpark := rfl
@[simp] theorem Core.expect_flagHist (c : Core) (f : RFile) (r n : Nat) : (c.expect f r n).flagHist = c.flagHist := rfl
@[simp] theorem Core.expect_nextTag (c : Core) (f : RFile) (r n : Nat) : (c.expect f r n).nextTag = c.nextTag := rfl
@[simp] theorem Core.expect_marked (c : Core) (f : RFile) (r n : Nat) : (c.expect f r n).marked = c.marked := rfl
@[simp] theorem Core.expect_yreq (c : Core) (f : RFile) (r n : Nat) : (c.expect f r n).yreq = c.yreq := rfl
@[simp] theorem Core.expect_preempt (c : Core) (f : RFile) (r n : Nat) : (c.expect f r n).preempt = c.preempt := rfl
@[simp] theorem Core.expect_events (c : Core) (f : RFile) (r n : Nat) : (c.expect f r n).events = c.events := rfl
@[simp] theorem Core.expect_idleAt (c : Core) (f : RFile) (r n : Nat) : (c.expect f r n).idleAt = c.idleAt := rfl
@[simp] theorem Core.expect_mem (c : Core) (f : RFile) (r n : Nat) : (c.expect f r n).mem = c.mem := rfl
@[simp] theorem Core.expect_pushes (c : Core) (f : RFile) (r n : Nat) : (c.expect f r n).pushes = c.pushes := rfl
@[simp] theorem Core.expect_plb (c : Core) (f : RFile) (r n : Nat) : (c.expect f r n).plb = c.plb := rfl
@[simp] theorem Core.expect_pred (c : Core) (f : RFile) (r n : Nat) : (c.expect f r n).pred = c.pred := rfl
@[simp] theorem Core.expect_fwd (c : Core) (f : RFile) (r n : Nat) : (c.expect f r n).fwd = c.fwd := rfl
@[simp] theorem Core.expect_icache (c : Core) (f : RFile) (r n : Nat) : (c.expect f r n).icache = c.icache := rfl
@[simp] theorem Core.expect_code (c : Core) (f : RFile) (r n : Nat) : (c.expect f r n).code = c.code := rfl
@[simp] theorem Core.expect_replay (c : Core) (f : RFile) (r n : Nat) : (c.expect f r n).replay = c.replay := rfl
@[simp] theorem Core.expect_reissued (c : Core) (f : RFile) (r n : Nat) : (c.expect f r n).reissued = c.reissued := rfl
@[simp] theorem Core.expect_later (c : Core) (f : RFile) (r n : Nat) : (c.expect f r n).later = c.later := rfl
@[simp] theorem Core.expect_acquired (c : Core) (f : RFile) (r n : Nat) : (c.expect f r n).acquired = c.acquired := rfl
@[simp] theorem Core.expect_inbox (c : Core) (f : RFile) (r n : Nat) : (c.expect f r n).inbox = c.inbox := rfl
@[simp] theorem Core.expect_credits (c : Core) (f : RFile) (r n : Nat) : (c.expect f r n).credits = c.credits := rfl
@[simp] theorem Core.expect_mcsts (c : Core) (f : RFile) (r n : Nat) : (c.expect f r n).mcsts = c.mcsts := rfl
@[simp] theorem Core.expect_watch (c : Core) (f : RFile) (r n : Nat) : (c.expect f r n).watch = c.watch := rfl
@[simp] theorem Core.expect_popReq (c : Core) (f : RFile) (r n : Nat) : (c.expect f r n).popReq = c.popReq := rfl
@[simp] theorem Core.expect_listed (c : Core) (f : RFile) (r n : Nat) : (c.expect f r n).listed = c.listed := rfl
@[simp] theorem Core.expect_copyq (c : Core) (f : RFile) (r n : Nat) : (c.expect f r n).copyq = c.copyq := rfl
@[simp] theorem Core.expect_live (c : Core) (f : RFile) (r n : Nat) : (c.expect f r n).live = c.live := rfl
@[simp] theorem Core.expect_members (c : Core) (f : RFile) (r n : Nat) : (c.expect f r n).members = c.members := rfl
@[simp] theorem Core.expect_leader (c : Core) (f : RFile) (r n : Nat) : (c.expect f r n).leader = c.leader := rfl
@[simp] theorem Core.expect_lane (c : Core) (f : RFile) (r n : Nat) : (c.expect f r n).lane = c.lane := rfl
@[simp] theorem Core.expect_cordsz (c : Core) (f : RFile) (r n : Nat) : (c.expect f r n).cordsz = c.cordsz := rfl
@[simp] theorem Core.expect_tretWait (c : Core) (f : RFile) (r n : Nat) : (c.expect f r n).tretWait = c.tretWait := rfl
@[simp] theorem Core.expect_tretGo (c : Core) (f : RFile) (r n : Nat) : (c.expect f r n).tretGo = c.tretGo := rfl
@[simp] theorem Core.expect_qcount (c : Core) (f : RFile) (r n : Nat) : (c.expect f r n).qcount = c.qcount := rfl
@[simp] theorem Core.expect_qended (c : Core) (f : RFile) (r n : Nat) : (c.expect f r n).qended = c.qended := rfl
@[simp] theorem Core.expect_qgo (c : Core) (f : RFile) (r n : Nat) : (c.expect f r n).qgo = c.qgo := rfl
@[simp] theorem Core.expect_heldOut (c : Core) (f : RFile) (r n : Nat) : (c.expect f r n).heldOut = c.heldOut := rfl
@[simp] theorem Core.expect_injVanish (c : Core) (f : RFile) (r n : Nat) : (c.expect f r n).injVanish = c.injVanish := rfl
@[simp] theorem Core.expect_injHold (c : Core) (f : RFile) (r n : Nat) : (c.expect f r n).injHold = c.injHold := rfl
@[simp] theorem Core.expect_injParity (c : Core) (f : RFile) (r n : Nat) : (c.expect f r n).injParity = c.injParity := rfl

/-! ## `raise` -/

@[simp] theorem Core.raise_pl (c : Core) (fl : BitVec 5) (n : Nat) : (c.raise fl n).pl = c.pl := rfl
@[simp] theorem Core.raise_check (c : Core) (fl : BitVec 5) (n : Nat) : (c.raise fl n).check = c.check := rfl
@[simp] theorem Core.raise_dzt (c : Core) (fl : BitVec 5) (n : Nat) : (c.raise fl n).dzt = c.dzt := rfl
@[simp] theorem Core.raise_ctxid (c : Core) (fl : BitVec 5) (n : Nat) : (c.raise fl n).ctxid = c.ctxid := rfl
@[simp] theorem Core.raise_region (c : Core) (fl : BitVec 5) (n : Nat) : (c.raise fl n).region = c.region := rfl
@[simp] theorem Core.raise_supv (c : Core) (fl : BitVec 5) (n : Nat) : (c.raise fl n).supv = c.supv := rfl
@[simp] theorem Core.raise_ternbad (c : Core) (fl : BitVec 5) (n : Nat) : (c.raise fl n).ternbad = c.ternbad := rfl
@[simp] theorem Core.raise_instret (c : Core) (fl : BitVec 5) (n : Nat) : (c.raise fl n).instret = c.instret := rfl
@[simp] theorem Core.raise_tvec (c : Core) (fl : BitVec 5) (n : Nat) : (c.raise fl n).tvec = c.tvec := rfl
@[simp] theorem Core.raise_tcause (c : Core) (fl : BitVec 5) (n : Nat) : (c.raise fl n).tcause = c.tcause := rfl
@[simp] theorem Core.raise_tval (c : Core) (fl : BitVec 5) (n : Nat) : (c.raise fl n).tval = c.tval := rfl
@[simp] theorem Core.raise_tpc (c : Core) (fl : BitVec 5) (n : Nat) : (c.raise fl n).tpc = c.tpc := rfl
@[simp] theorem Core.raise_sscratch (c : Core) (fl : BitVec 5) (n : Nat) : (c.raise fl n).sscratch = c.sscratch := rfl
@[simp] theorem Core.raise_mvec (c : Core) (fl : BitVec 5) (n : Nat) : (c.raise fl n).mvec = c.mvec := rfl
@[simp] theorem Core.raise_mscratch (c : Core) (fl : BitVec 5) (n : Nat) : (c.raise fl n).mscratch = c.mscratch := rfl
@[simp] theorem Core.raise_run (c : Core) (fl : BitVec 5) (n : Nat) : (c.raise fl n).run = c.run := rfl
@[simp] theorem Core.raise_iss (c : Core) (fl : BitVec 5) (n : Nat) : (c.raise fl n).iss = c.iss := rfl
@[simp] theorem Core.raise_slot (c : Core) (fl : BitVec 5) (n : Nat) : (c.raise fl n).slot = c.slot := rfl
@[simp] theorem Core.raise_txn (c : Core) (fl : BitVec 5) (n : Nat) : (c.raise fl n).txn = c.txn := rfl
@[simp] theorem Core.raise_ready (c : Core) (fl : BitVec 5) (n : Nat) : (c.raise fl n).ready = c.ready := rfl
@[simp] theorem Core.raise_fpark (c : Core) (fl : BitVec 5) (n : Nat) : (c.raise fl n).fpark = c.fpark := rfl
@[simp] theorem Core.raise_silent (c : Core) (fl : BitVec 5) (n : Nat) : (c.raise fl n).silent = c.silent := rfl
@[simp] theorem Core.raise_gpark (c : Core) (fl : BitVec 5) (n : Nat) : (c.raise fl n).gpark = c.gpark := rfl
@[simp] theorem Core.raise_flagHist (c : Core) (fl : BitVec 5) (n : Nat) : (c.raise fl n).flagHist = c.flagHist := rfl
@[simp] theorem Core.raise_nextTag (c : Core) (fl : BitVec 5) (n : Nat) : (c.raise fl n).nextTag = c.nextTag := rfl
@[simp] theorem Core.raise_marked (c : Core) (fl : BitVec 5) (n : Nat) : (c.raise fl n).marked = c.marked := rfl
@[simp] theorem Core.raise_yreq (c : Core) (fl : BitVec 5) (n : Nat) : (c.raise fl n).yreq = c.yreq := rfl
@[simp] theorem Core.raise_preempt (c : Core) (fl : BitVec 5) (n : Nat) : (c.raise fl n).preempt = c.preempt := rfl
@[simp] theorem Core.raise_events (c : Core) (fl : BitVec 5) (n : Nat) : (c.raise fl n).events = c.events := rfl
@[simp] theorem Core.raise_idleAt (c : Core) (fl : BitVec 5) (n : Nat) : (c.raise fl n).idleAt = c.idleAt := rfl
@[simp] theorem Core.raise_mem (c : Core) (fl : BitVec 5) (n : Nat) : (c.raise fl n).mem = c.mem := rfl
@[simp] theorem Core.raise_pushes (c : Core) (fl : BitVec 5) (n : Nat) : (c.raise fl n).pushes = c.pushes := rfl
@[simp] theorem Core.raise_plb (c : Core) (fl : BitVec 5) (n : Nat) : (c.raise fl n).plb = c.plb := rfl
@[simp] theorem Core.raise_pred (c : Core) (fl : BitVec 5) (n : Nat) : (c.raise fl n).pred = c.pred := rfl
@[simp] theorem Core.raise_fwd (c : Core) (fl : BitVec 5) (n : Nat) : (c.raise fl n).fwd = c.fwd := rfl
@[simp] theorem Core.raise_icache (c : Core) (fl : BitVec 5) (n : Nat) : (c.raise fl n).icache = c.icache := rfl
@[simp] theorem Core.raise_code (c : Core) (fl : BitVec 5) (n : Nat) : (c.raise fl n).code = c.code := rfl
@[simp] theorem Core.raise_replay (c : Core) (fl : BitVec 5) (n : Nat) : (c.raise fl n).replay = c.replay := rfl
@[simp] theorem Core.raise_reissued (c : Core) (fl : BitVec 5) (n : Nat) : (c.raise fl n).reissued = c.reissued := rfl
@[simp] theorem Core.raise_later (c : Core) (fl : BitVec 5) (n : Nat) : (c.raise fl n).later = c.later := rfl
@[simp] theorem Core.raise_acquired (c : Core) (fl : BitVec 5) (n : Nat) : (c.raise fl n).acquired = c.acquired := rfl
@[simp] theorem Core.raise_inbox (c : Core) (fl : BitVec 5) (n : Nat) : (c.raise fl n).inbox = c.inbox := rfl
@[simp] theorem Core.raise_credits (c : Core) (fl : BitVec 5) (n : Nat) : (c.raise fl n).credits = c.credits := rfl
@[simp] theorem Core.raise_mcsts (c : Core) (fl : BitVec 5) (n : Nat) : (c.raise fl n).mcsts = c.mcsts := rfl
@[simp] theorem Core.raise_watch (c : Core) (fl : BitVec 5) (n : Nat) : (c.raise fl n).watch = c.watch := rfl
@[simp] theorem Core.raise_popReq (c : Core) (fl : BitVec 5) (n : Nat) : (c.raise fl n).popReq = c.popReq := rfl
@[simp] theorem Core.raise_listed (c : Core) (fl : BitVec 5) (n : Nat) : (c.raise fl n).listed = c.listed := rfl
@[simp] theorem Core.raise_copyq (c : Core) (fl : BitVec 5) (n : Nat) : (c.raise fl n).copyq = c.copyq := rfl
@[simp] theorem Core.raise_live (c : Core) (fl : BitVec 5) (n : Nat) : (c.raise fl n).live = c.live := rfl
@[simp] theorem Core.raise_members (c : Core) (fl : BitVec 5) (n : Nat) : (c.raise fl n).members = c.members := rfl
@[simp] theorem Core.raise_leader (c : Core) (fl : BitVec 5) (n : Nat) : (c.raise fl n).leader = c.leader := rfl
@[simp] theorem Core.raise_lane (c : Core) (fl : BitVec 5) (n : Nat) : (c.raise fl n).lane = c.lane := rfl
@[simp] theorem Core.raise_cordsz (c : Core) (fl : BitVec 5) (n : Nat) : (c.raise fl n).cordsz = c.cordsz := rfl
@[simp] theorem Core.raise_tretWait (c : Core) (fl : BitVec 5) (n : Nat) : (c.raise fl n).tretWait = c.tretWait := rfl
@[simp] theorem Core.raise_tretGo (c : Core) (fl : BitVec 5) (n : Nat) : (c.raise fl n).tretGo = c.tretGo := rfl
@[simp] theorem Core.raise_qcount (c : Core) (fl : BitVec 5) (n : Nat) : (c.raise fl n).qcount = c.qcount := rfl
@[simp] theorem Core.raise_qended (c : Core) (fl : BitVec 5) (n : Nat) : (c.raise fl n).qended = c.qended := rfl
@[simp] theorem Core.raise_qgo (c : Core) (fl : BitVec 5) (n : Nat) : (c.raise fl n).qgo = c.qgo := rfl
@[simp] theorem Core.raise_heldOut (c : Core) (fl : BitVec 5) (n : Nat) : (c.raise fl n).heldOut = c.heldOut := rfl
@[simp] theorem Core.raise_injVanish (c : Core) (fl : BitVec 5) (n : Nat) : (c.raise fl n).injVanish = c.injVanish := rfl
@[simp] theorem Core.raise_injHold (c : Core) (fl : BitVec 5) (n : Nat) : (c.raise fl n).injHold = c.injHold := rfl
@[simp] theorem Core.raise_injParity (c : Core) (fl : BitVec 5) (n : Nat) : (c.raise fl n).injParity = c.injParity := rfl
@[simp] theorem Core.raise_t_s (c : Core) (fl : BitVec 5) (n : Nat) : (c.raise fl n).t.s = c.t.s := rfl
@[simp] theorem Core.raise_t_v (c : Core) (fl : BitVec 5) (n : Nat) : (c.raise fl n).t.v = c.t.v := rfl
@[simp] theorem Core.raise_t_p (c : Core) (fl : BitVec 5) (n : Nat) : (c.raise fl n).t.p = c.t.p := rfl
@[simp] theorem Core.raise_t_h (c : Core) (fl : BitVec 5) (n : Nat) : (c.raise fl n).t.h = c.t.h := rfl
@[simp] theorem Core.raise_t_w (c : Core) (fl : BitVec 5) (n : Nat) : (c.raise fl n).t.w = c.t.w := rfl
@[simp] theorem Core.raise_t_fmask (c : Core) (fl : BitVec 5) (n : Nat) : (c.raise fl n).t.fmask = c.t.fmask := rfl
@[simp] theorem Core.raise_t_rmode (c : Core) (fl : BitVec 5) (n : Nat) : (c.raise fl n).t.rmode = c.t.rmode := rfl
@[simp] theorem Core.raise_t_vtt (c : Core) (fl : BitVec 5) (n : Nat) : (c.raise fl n).t.vtt = c.t.vtt := rfl
@[simp] theorem Core.raise_t_scaleb (c : Core) (fl : BitVec 5) (n : Nat) : (c.raise fl n).t.scaleb = c.t.scaleb := rfl
@[simp] theorem Core.raise_t_homepol (c : Core) (fl : BitVec 5) (n : Nat) : (c.raise fl n).t.homepol = c.t.homepol := rfl
@[simp] theorem Core.raise_t_pc (c : Core) (fl : BitVec 5) (n : Nat) : (c.raise fl n).t.pc = c.t.pc := rfl
@[simp] theorem Core.raise_t_nom (c : Core) (fl : BitVec 5) (n : Nat) : (c.raise fl n).t.nom = c.t.nom := rfl
@[simp] theorem Core.raise_t_pend (c : Core) (fl : BitVec 5) (n : Nat) : (c.raise fl n).t.pend = c.t.pend := rfl
@[simp] theorem Core.raise_t_div (c : Core) (fl : BitVec 5) (n : Nat) : (c.raise fl n).t.div = c.t.div := rfl
@[simp] theorem Core.raise_t_draws (c : Core) (fl : BitVec 5) (n : Nat) : (c.raise fl n).t.draws = c.t.draws := rfl
@[simp] theorem Core.raise_t_prio (c : Core) (fl : BitVec 5) (n : Nat) : (c.raise fl n).t.prio = c.t.prio := rfl
@[simp] theorem Core.raise_t_frame (c : Core) (fl : BitVec 5) (n : Nat) : (c.raise fl n).t.frame = c.t.frame := rfl
@[simp] theorem Core.raise_t_vint (c : Core) (fl : BitVec 5) (n : Nat) : (c.raise fl n).t.vint = c.t.vint := rfl
@[simp] theorem Core.raise_t_run (c : Core) (fl : BitVec 5) (n : Nat) : (c.raise fl n).t.run = c.t.run := rfl
@[simp] theorem Core.raise_t_gens (c : Core) (fl : BitVec 5) (n : Nat) : (c.raise fl n).t.gens = c.t.gens := rfl
@[simp] theorem Core.raise_t_streams (c : Core) (fl : BitVec 5) (n : Nat) : (c.raise fl n).t.streams = c.t.streams := rfl

end Sys2Proof.Machine
end

