-- ==== Sys2Proof/Laws/Maps.lean ====
section
/-!
SUPPORT. What reads of finite maps and of byte memories give after their writes, and that every memory operation keeps the
canonical form.
-/
namespace Sys2Proof.Machine

/-! ## Reading a map after a change -/

@[simp] theorem FMap.get?_nil {V : Type} (n : Nat) : FMap.get? ([] : FMap V) n = none := rfl

theorem FMap.get?_erase {V : Type} (m : FMap V) (k n : Nat) :
    FMap.get? (FMap.erase m k) n = if n = k then none else FMap.get? m n := by
  induction m with
  | nil => simp [FMap.erase]
  | cons e m ih =>
    obtain ⟨a, v⟩ := e
    by_cases hak : a = k
    · subst hak
      by_cases hna : n = a
      · subst hna
        simpa [FMap.erase] using ih
      · have : a ≠ n := fun h => hna h.symm
        simp [FMap.erase, FMap.get?, ih, hna, this]
    · by_cases han : a = n
      · subst han
        simp [FMap.erase, FMap.get?, hak]
      · simp [FMap.erase, FMap.get?, hak, han, ih]

theorem FMap.get?_insert {V : Type} (m : FMap V) (k n : Nat) (x : V) (h : FMap.get? m k = none) :
    FMap.get? (FMap.insert m k x) n = if n = k then some x else FMap.get? m n := by
  induction m with
  | nil =>
    by_cases hn : n = k
    · simp [FMap.insert, FMap.get?, hn]
    · have : k ≠ n := fun e => hn e.symm
      simp [FMap.insert, FMap.get?, hn, this]
  | cons e m ih =>
    obtain ⟨a, v⟩ := e
    have hak : a ≠ k := by intro e; simp [FMap.get?, e] at h
    have hm : FMap.get? m k = none := by simpa [FMap.get?, hak] using h
    by_cases hlt : k < a
    · by_cases hn : n = k
      · simp [FMap.insert, FMap.get?, hlt, hn]
      · have : k ≠ n := fun e => hn e.symm
        simp [FMap.insert, FMap.get?, hlt, hn, this]
    · by_cases han : a = n
      · subst han
        simp [FMap.insert, FMap.get?, hlt, hak]
      · simp [FMap.insert, FMap.get?, hlt, han, ih hm]

/-- A map after `put`: the key gives the new value, every other key what it gave. -/
theorem FMap.get?_put {V : Type} (m : FMap V) (k n : Nat) (x : V) :
    FMap.get? (FMap.put m k x) n = if n = k then some x else FMap.get? m n := by
  rw [FMap.put, FMap.get?_insert _ _ _ _ (by simp [FMap.get?_erase]), FMap.get?_erase]
  by_cases h : n = k <;> simp [h]

@[simp] theorem FMap.getD_put {V : Type} (m : FMap V) (k : Nat) (x d : V) : FMap.getD (FMap.put m k x) k d = x := by
  simp [FMap.getD, FMap.get?_put]

theorem FMap.getD_put_ne {V : Type} (m : FMap V) {k n : Nat} (x d : V) (h : n ≠ k) :
    FMap.getD (FMap.put m k x) n d = FMap.getD m n d := by
  simp [FMap.getD, FMap.get?_put, h]

/-! ## The canonical form -/

/-- Every key of the map is above a bound. -/
def FMap.above {V : Type} (m : FMap V) (b : Nat) : Prop := ∀ e ∈ m, b < e.1

theorem FMap.sorted_cons {V : Type} (a : Nat) (v : V) (m : FMap V) :
    FMap.sorted ((a, v) :: m) = true ↔ FMap.above m a ∧ FMap.sorted m = true := by
  induction m generalizing a v with
  | nil => simp [FMap.sorted, FMap.above]
  | cons e m ih =>
    obtain ⟨b, w⟩ := e
    simp only [FMap.sorted, Bool.and_eq_true, decide_eq_true_eq]
    constructor
    · rintro ⟨hab, hs⟩
      refine ⟨?_, hs⟩
      have := ((ih b w).1 hs).1
      intro e he
      rcases List.mem_cons.1 he with rfl | he
      · exact hab
      · exact Nat.lt_trans hab (this e he)
    · rintro ⟨ha, hs⟩
      exact ⟨ha (b, w) (by simp), hs⟩

theorem FMap.mem_erase {V : Type} {m : FMap V} {k : Nat} {e : Nat × V} (h : e ∈ FMap.erase m k) : e ∈ m := by
  induction m with
  | nil => simp [FMap.erase] at h
  | cons x m ih =>
    obtain ⟨a, v⟩ := x
    unfold FMap.erase at h
    split at h
    · exact List.mem_cons_of_mem _ (ih h)
    · rcases List.mem_cons.1 h with rfl | h
      · simp
      · exact List.mem_cons_of_mem _ (ih h)

theorem FMap.mem_insert {V : Type} {m : FMap V} {k : Nat} {x : V} {e : Nat × V} (h : e ∈ FMap.insert m k x) :
    e = (k, x) ∨ e ∈ m := by
  induction m with
  | nil => simpa [FMap.insert] using h
  | cons y m ih =>
    obtain ⟨a, v⟩ := y
    unfold FMap.insert at h
    split at h
    · rcases List.mem_cons.1 h with rfl | h
      · exact .inl rfl
      · exact .inr h
    · rcases List.mem_cons.1 h with rfl | h
      · exact .inr (by simp)
      · exact (ih h).imp_right (List.mem_cons_of_mem _)

theorem FMap.sorted_erase {V : Type} (m : FMap V) (k : Nat) (h : FMap.sorted m = true) :
    FMap.sorted (FMap.erase m k) = true := by
  induction m with
  | nil => simp [FMap.erase, FMap.sorted]
  | cons e m ih =>
    obtain ⟨a, v⟩ := e
    obtain ⟨ha, hs⟩ := (FMap.sorted_cons a v m).1 h
    unfold FMap.erase
    split
    · exact ih hs
    · exact (FMap.sorted_cons _ _ _).2 ⟨fun e he => ha e (FMap.mem_erase he), ih hs⟩

theorem FMap.sorted_insert {V : Type} (m : FMap V) (k : Nat) (x : V) (h : FMap.sorted m = true)
    (hk : ∀ e ∈ m, e.1 ≠ k) : FMap.sorted (FMap.insert m k x) = true := by
  induction m with
  | nil => simp [FMap.insert, FMap.sorted]
  | cons e m ih =>
    obtain ⟨a, v⟩ := e
    obtain ⟨ha, hs⟩ := (FMap.sorted_cons a v m).1 h
    unfold FMap.insert
    split
    · rename_i hka
      refine (FMap.sorted_cons _ _ _).2 ⟨?_, h⟩
      intro e he
      rcases List.mem_cons.1 he with rfl | he
      · exact hka
      · exact Nat.lt_trans hka (ha e he)
    · rename_i hka
      have hne : a ≠ k := hk (a, v) (by simp)
      refine (FMap.sorted_cons _ _ _).2 ⟨?_, ih hs (fun e he => hk e (List.mem_cons_of_mem _ he))⟩
      intro e he
      rcases FMap.mem_insert he with rfl | he
      · exact Nat.lt_of_le_of_ne (Nat.not_lt.1 hka) hne
      · exact ha e he

theorem FMap.key_ne_of_erase {V : Type} {m : FMap V} {k : Nat} {e : Nat × V} (h : e ∈ FMap.erase m k) : e.1 ≠ k := by
  induction m with
  | nil => simp [FMap.erase] at h
  | cons x m ih =>
    obtain ⟨a, v⟩ := x
    unfold FMap.erase at h
    split at h
    · exact ih h
    · rename_i hne
      rcases List.mem_cons.1 h with rfl | h
      · exact hne
      · exact ih h

theorem FMap.sorted_put {V : Type} (m : FMap V) (k : Nat) (x : V) (h : FMap.sorted m = true) :
    FMap.sorted (FMap.put m k x) = true :=
  FMap.sorted_insert _ _ _ (FMap.sorted_erase _ _ h) (fun _ he => FMap.key_ne_of_erase he)

theorem Memory.wf_iff (m : List Host.Cell) :
    Memory.wf m = true ↔ FMap.sorted m = true ∧ ∀ e ∈ m, e.2 ≠ Memory.dflt := by
  simp [Memory.wf]

theorem Memory.wf_write (m : List Host.Cell) (k : Nat) (b : Byte) (h : Memory.wf m = true) :
    Memory.wf (Memory.write m k b) = true := by
  obtain ⟨hs, hd⟩ := (Memory.wf_iff m).1 h
  unfold Memory.write
  split
  · exact (Memory.wf_iff _).2 ⟨FMap.sorted_erase _ _ hs, fun e he => hd e (FMap.mem_erase he)⟩
  · rename_i hb
    refine (Memory.wf_iff _).2 ⟨FMap.sorted_put _ _ _ hs, ?_⟩
    intro e he
    rcases FMap.mem_insert he with rfl | he
    · exact hb
    · exact hd e (FMap.mem_erase he)

theorem Memory.wf_writeAll (m : List Host.Cell) (ks : List Nat) (bs : List Byte) (h : Memory.wf m = true) :
    Memory.wf (Memory.writeAll m ks bs) = true := by
  induction ks generalizing m bs with
  | nil => simpa [Memory.writeAll] using h
  | cons k ks ih =>
    cases bs with
    | nil => simpa [Memory.writeAll] using h
    | cons b bs => exact ih _ _ (Memory.wf_write m k b h)

theorem FMap.sorted_filter {V : Type} (m : FMap V) (p : Nat × V → Bool) (h : FMap.sorted m = true) :
    FMap.sorted (m.filter p : FMap V) = true := by
  induction m with
  | nil => simp [FMap.sorted]
  | cons e m ih =>
    obtain ⟨a, v⟩ := e
    obtain ⟨ha, hs⟩ := (FMap.sorted_cons a v m).1 h
    simp only [List.filter_cons]
    split
    · exact (FMap.sorted_cons _ _ _).2 ⟨fun e he => ha e ((List.mem_filter.1 he).1), ih hs⟩
    · exact ih hs

theorem Memory.wf_wipe (m : List Host.Cell) (p : Nat → Bool) (h : Memory.wf m = true) :
    Memory.wf (Memory.wipe m p) = true := by
  obtain ⟨hs, hd⟩ := (Memory.wf_iff m).1 h
  exact (Memory.wf_iff _).2 ⟨FMap.sorted_filter _ _ hs, fun e he => hd e ((List.mem_filter.1 he).1)⟩

/-! ## Reading a memory after a write -/

/-- A byte after a write: the written one at its key, every other as it was. -/
theorem Memory.read_write (m : List Host.Cell) (k n : Nat) (b : Byte) :
    Memory.read (Memory.write m k b) n = if n = k then b else Memory.read m n := by
  unfold Memory.read Memory.write FMap.getD
  by_cases hb : b = Memory.dflt <;> by_cases h : n = k <;> simp [hb, h, FMap.get?_erase, FMap.get?_put]

/-- A byte outside the keys of a write keeps its value. -/
theorem Memory.read_writeAll_ne (m : List Host.Cell) (ks : List Nat) (bs : List Byte) (n : Nat) (h : n ∉ ks) :
    Memory.read (Memory.writeAll m ks bs) n = Memory.read m n := by
  induction ks generalizing m bs with
  | nil => simp [Memory.writeAll]
  | cons k ks ih =>
    cases bs with
    | nil => simp [Memory.writeAll]
    | cons b bs =>
      rw [Memory.writeAll, ih _ _ (fun e => h (List.mem_cons_of_mem _ e)), Memory.read_write]
      simp [show n ≠ k from fun e => h (by simp [e])]

/-- Bytes written to different keys are read back. -/
theorem Memory.readAll_writeAll (m : List Host.Cell) (ks : List Nat) (bs : List Byte) (hn : ks.Nodup)
    (hl : ks.length = bs.length) : Memory.readAll (Memory.writeAll m ks bs) ks = bs := by
  induction ks generalizing m bs with
  | nil => cases bs <;> simp_all [Memory.readAll]
  | cons k ks ih =>
    cases bs with
    | nil => simp at hl
    | cons b bs =>
      obtain ⟨hk, hn'⟩ := List.nodup_cons.1 hn
      have := ih (Memory.write m k b) bs hn' (by simpa using hl)
      simp only [Memory.readAll] at this
      simp [Memory.readAll, Memory.writeAll, this, Memory.read_writeAll_ne _ _ _ _ hk, Memory.read_write]

/-! ## Numbers as bytes -/

theorem toBytes_length (n x : Nat) : (toBytes n x).length = n := by
  induction n generalizing x with
  | zero => rfl
  | succ n ih => simp [toBytes, ih]

/-- The bytes of a number give it back (00 R5). -/
theorem ofBytes_toBytes (n x : Nat) : ofBytes (toBytes n x) = x % 256 ^ n := by
  induction n generalizing x with
  | zero => simp [toBytes, ofBytes, Nat.mod_one]
  | succ n ih =>
    rw [toBytes, ofBytes, ih, BitVec.toNat_ofNat, Nat.pow_succ 256 n, Nat.mul_comm (256 ^ n) 256, Nat.mod_mul]

end Sys2Proof.Machine
end

