-- ==== Sys2Proof/Laws/Memory.lean ====
section
/-!
SUPPORT. What each operation over memory can do, once for each: it changes memory, the caches, what is kept with them, the
invocation counts of the links, and nothing else; and memory keeps its canonical form.
-/
namespace Sys2Proof.Machine

/-- Only memory, its cached lines, what is kept with them and the links differ, and memory keeps its canonical form. -/
def MemStep (s t : State) : Prop :=
  t = { s with mem := t.mem, enc := t.enc, bad := t.bad, cache := t.cache, stale := t.stale, links := t.links }
    ∧ (Memory.wf s.mem = true → Memory.wf t.mem = true)

theorem MemStep.refl (s : State) : MemStep s s := ⟨rfl, id⟩
theorem MemStep.trans {s t u : State} (h : MemStep s t) (k : MemStep t u) : MemStep s u :=
  ⟨by rw [k.1, h.1], fun w => k.2 (h.2 w)⟩
theorem MemStep.cores {s t : State} (h : MemStep s t) : t.cores = s.cores := by rw [h.1]
theorem MemStep.net {s t : State} (h : MemStep s t) : t.net = s.net := by rw [h.1]
theorem MemStep.ctxs {s t : State} (h : MemStep s t) : t.ctxs = s.ctxs := by rw [h.1]
theorem MemStep.queues {s t : State} (h : MemStep s t) : t.queues = s.queues := by rw [h.1]
theorem MemStep.ev {s t : State} (h : MemStep s t) : t.ev = s.ev := by rw [h.1]
theorem MemStep.cur {s t : State} (h : MemStep s t) : t.cur = s.cur := by rw [h.1]; rfl

theorem State.writeLine_memStep (s : State) (va : Nat) (l : Line) : MemStep s (s.writeLine va l) :=
  ⟨rfl, fun h => Memory.wf_writeAll _ _ _ h⟩

theorem State.evict_memStep (s : State) (vl : Nat) : MemStep s (s.evict vl) := by
  unfold State.evict
  split
  · exact .refl s
  · dsimp only
    split
    · exact .trans (t := { s with cache := FMap.erase s.cache vl }) ⟨rfl, id⟩ (State.writeLine_memStep _ _ _)
    · exact ⟨rfl, id⟩

theorem State.flushLines_memStep (s : State) (va n : Nat) : MemStep s (s.flushLines va n) := by
  unfold State.flushLines
  induction List.range n generalizing s with
  | nil => exact .refl s
  | cons k l ih => exact .trans (State.evict_memStep s _) (ih _)

theorem State.keepLine_memStep (s : State) (va : Nat) (l : Line) (cached : Bool) (hint : Hint) (l1 : Option Nat) :
    MemStep s (s.keepLine va l cached hint l1) := by
  unfold State.keepLine
  split
  · split
    · exact ⟨rfl, id⟩
    · split
      · exact State.writeLine_memStep _ _ _
      · exact .refl s
  · exact ⟨rfl, id⟩

theorem State.readLineBytes_ok {s t : State} {as : List Nat} {hint : Hint} {l1 : Option Nat} {bs : List Byte}
    (h : s.readLineBytes as hint l1 = .ok bs t) : MemStep s t := by
  unfold State.readLineBytes at h
  split at h
  · cases h; exact .refl s
  · split at h
    · cases h
    · cases h
    · split at h
      · cases h
      · cases h; exact State.keepLine_memStep ..

theorem State.writeLineBytes_ok {s t : State} {as : List Nat} {bs cs : List Byte} {hint : Hint} {l1 : Option Nat}
    (h : s.writeLineBytes as bs hint l1 = .ok cs t) : MemStep s t := by
  unfold State.writeLineBytes at h
  split at h
  · cases h; exact .refl s
  · split at h
    · cases h
    · cases h
    · split at h
      · cases h
      · cases h; exact State.keepLine_memStep ..

theorem State.readLocs_ok {s t : State} {ls : List Nat} {hint : Hint} {l1 : Option Nat} {bs : List Byte}
    (h : s.readLocs ls hint l1 = .ok bs t) : MemStep s t := by
  unfold State.readLocs at h
  dsimp only at h
  split at h
  · cases h
  · split at h
    · cases h; exact State.readLineBytes_ok ‹_›
    · rename_i e _ _
      exact absurd h (by rename_i hne; exact fun hh => hne _ _ hh)

theorem State.writeLocs_ok {s t : State} {ls : List Nat} {bs cs : List Byte} {hint : Hint} {l1 : Option Nat}
    (h : s.writeLocs ls bs hint l1 = .ok cs t) : MemStep s t := by
  unfold State.writeLocs at h
  split at h
  · cases h; exact .refl s
  · split at h
    · dsimp only at h
      split at h
      · cases h
      · cases h; exact ⟨rfl, fun w => Memory.wf_writeAll _ _ _ w⟩
    · exact State.writeLineBytes_ok h

theorem State.dropCopy_memStep (s : State) (line : Nat) : MemStep s (s.dropCopy line) := by
  unfold State.dropCopy
  split
  · split
    · exact State.evict_memStep ..
    · exact .refl s
  · exact .refl s

theorem State.see_memStep (s : State) (th : Nat) (ls : List Nat) (used : Option Visitor) : MemStep s (s.see th ls used) :=
  ⟨rfl, id⟩
theorem State.reach_memStep (s : State) (p : Writer → Bool) : MemStep s (s.reach p) := ⟨rfl, id⟩
theorem State.reachFor_memStep (s : State) (n : Nat) (x : Access) : MemStep s (s.reachFor n x) := by
  unfold State.reachFor
  dsimp only
  repeat' split
  all_goals exact ⟨rfl, id⟩

theorem State.invalidate_memStep (s : State) (by_ : Option Writer) (old : FMap Line) (ls : List Nat) :
    MemStep s (s.invalidate by_ old ls) := by
  unfold State.invalidate
  split
  · exact .refl s
  · split
    · exact .trans (State.dropCopy_memStep s _) ⟨rfl, id⟩
    · exact .trans (State.dropCopy_memStep s _) ⟨rfl, id⟩

theorem State.dropVisitor_memStep (s : State) (ls : List Nat) : MemStep s (s.dropVisitor ls) :=
  State.invalidate_memStep ..

theorem State.vPutLine_some {s t : State} {a : Nat} {bs : List Byte} (h : s.vPutLine a bs = some t) : MemStep s t := by
  unfold State.vPutLine at h
  dsimp only at h
  split at h
  · cases h
  · split at h
    · cases h
    · cases h
    · cases h
    · split at h
      · cases h; exact .trans (State.writeLocs_ok ‹_›) (State.dropVisitor_memStep ..)
      · cases h

theorem vPut_foldl {l : List (Nat × List Byte)} : ∀ {s t : State},
    l.foldl (fun o r => o.bind (fun (s : State) => s.vPutLine r.1 r.2)) (some s) = some t → MemStep s t := by
  induction l with
  | nil => intro s t h; cases h; exact .refl s
  | cons r l ih =>
    intro s t h
    simp only [List.foldl_cons, Option.bind_some] at h
    cases e : s.vPutLine r.1 r.2 with
    | none =>
      rw [e] at h
      have : ∀ l : List (Nat × List Byte), l.foldl (fun o r => o.bind (fun (s : State) => s.vPutLine r.1 r.2)) none = none := by
        intro l; induction l with
        | nil => rfl
        | cons _ _ ih => simpa using ih
      rw [this] at h; cases h
    | some u => rw [e] at h; exact .trans (State.vPutLine_some e) (ih h)

theorem State.vPut_some {s t : State} {a : Nat} {bs : List Byte} (h : s.vPut a bs = some t) : MemStep s t := vPut_foldl h

theorem State.vSet_memStep (s : State) (a n x : Nat) : MemStep s (s.vSet a n x) := by
  unfold State.vSet
  cases e : s.vPut a (toBytes n x) with
  | none => exact .refl s
  | some t => exact State.vPut_some e

theorem State.readSys_ok {s t : State} {ls : List Nat} {hint : Hint} {l1 : Option Nat} {bs : List Byte}
    (h : s.readSys ls hint l1 = .ok bs t) : MemStep s t := by
  unfold State.readSys at h
  split at h
  · split at h
    · split at h
      · cases h; exact .refl s
      · rename_i hne; exact absurd h (hne _ _)
    · exact State.readLocs_ok h
  · exact State.readLocs_ok h

/-- All that reading at an access's scope can do. -/
theorem State.readAt_ok {s t : State} {n : Nat} {x : Access} {ls : List Nat} {bs : List Byte}
    (h : s.readAt n x ls = .ok bs t) : MemStep s t := by
  unfold State.readAt at h
  dsimp only at h
  split at h
  · split at h
    · cases h; exact State.see_memStep ..
    · split at h
      · rename_i u e; cases h; exact .trans (t := u) (State.readLocs_ok e) ⟨rfl, id⟩
      · rename_i hne; exact absurd h (hne _ _)
  · split at h
    · rename_i u e; cases h; exact .trans (t := u) (State.readSys_ok e) ⟨rfl, id⟩
    · rename_i hne; exact absurd h (hne _ _)

/-- All that the write of an access can do. -/
theorem State.writeAccess_done {s t : State} {n : Nat} {x : Access} {ls : List Nat} {bs vs : List Byte}
    (h : s.writeAccess n x ls bs = .done vs t) : MemStep s t := by
  unfold State.writeAccess at h
  split at h
  · cases h
  · split at h
    · cases h
    · cases h
    · cases h
      exact .trans (State.writeLocs_ok ‹_›) (.trans (State.invalidate_memStep ..) ⟨rfl, id⟩)

/-- A reset keeps the canonical form. -/
theorem State.resetWith_wf (s : State) (keep : Nat → Bool) (h : Memory.wf s.mem = true) :
    Memory.wf (s.resetWith keep).mem = true := by
  show Memory.wf (Memory.wipe s.mem (fun k => !keep k)) = true
  exact Memory.wf_wipe _ _ h

end Sys2Proof.Machine
end

