-- ==== Sys2Proof/Laws/PerInstr.lean ====
section
/-!
SUPPORT. Facts made once per instruction. Family Coded: a row has an encoding exactly where it is a word.
-/
namespace Sys2Proof.Laws.Coded

/-- A row has an encoding exactly where it is one of the 227 words. -/
def Statement (i : Instr) : Prop := (encodeKox i).isSome = isWord i

theorem nop : Statement .nop := rfl
theorem nopA : Statement .nopA := rfl
theorem add (d a b : BitVec 5) : Statement (.add d a b) := rfl
theorem sub (d a b : BitVec 5) : Statement (.sub d a b) := rfl
theorem addi (d a : BitVec 5) (i : BitVec 10) : Statement (.addi d a i) := rfl
theorem mul (d a b : BitVec 5) : Statement (.mul d a b) := rfl
theorem mulh (d a b : BitVec 5) : Statement (.mulh d a b) := rfl
theorem mulhu (d a b : BitVec 5) : Statement (.mulhu d a b) := rfl
theorem div (d a b : BitVec 5) : Statement (.div d a b) := rfl
theorem divu (d a b : BitVec 5) : Statement (.divu d a b) := rfl
theorem rem (d a b : BitVec 5) : Statement (.rem d a b) := rfl
theorem remu (d a b : BitVec 5) : Statement (.remu d a b) := rfl
theorem and (d a b : BitVec 5) : Statement (.and d a b) := rfl
theorem or (d a b : BitVec 5) : Statement (.or d a b) := rfl
theorem xor (d a b : BitVec 5) : Statement (.xor d a b) := rfl
theorem andn (d a b : BitVec 5) : Statement (.andn d a b) := rfl
theorem andi (d a : BitVec 5) (i : BitVec 10) : Statement (.andi d a i) := rfl
theorem ori (d a : BitVec 5) (i : BitVec 10) : Statement (.ori d a i) := rfl
theorem xori (d a : BitVec 5) (i : BitVec 10) : Statement (.xori d a i) := rfl
theorem shl (d a b : BitVec 5) : Statement (.shl d a b) := rfl
theorem shr (d a b : BitVec 5) : Statement (.shr d a b) := rfl
theorem sra (d a b : BitVec 5) : Statement (.sra d a b) := rfl
theorem shli (d a : BitVec 5) (i : BitVec 10) : Statement (.shli d a i) := rfl
theorem shri (d a : BitVec 5) (i : BitVec 10) : Statement (.shri d a i) := rfl
theorem srai (d a : BitVec 5) (i : BitVec 10) : Statement (.srai d a i) := rfl
theorem rot (d a b : BitVec 5) : Statement (.rot d a b) := rfl
theorem roti (d a : BitVec 5) (i : BitVec 10) : Statement (.roti d a i) := rfl
theorem clz (d a : BitVec 5) : Statement (.clz d a) := rfl
theorem ctz (d a : BitVec 5) : Statement (.ctz d a) := rfl
theorem popc (d a : BitVec 5) : Statement (.popc d a) := rfl
theorem min (d a b : BitVec 5) : Statement (.min d a b) := rfl
theorem max (d a b : BitVec 5) : Statement (.max d a b) := rfl
theorem minu (d a b : BitVec 5) : Statement (.minu d a b) := rfl
theorem maxu (d a b : BitVec 5) : Statement (.maxu d a b) := rfl
theorem sel (d a b : BitVec 5) (p : BitVec 3) : Statement (.sel d a b p) := rfl
theorem cmpEq (d a b : BitVec 5) : Statement (.cmpEq d a b) := rfl
theorem cmpNe (d a b : BitVec 5) : Statement (.cmpNe d a b) := rfl
theorem cmpLt (d a b : BitVec 5) : Statement (.cmpLt d a b) := rfl
theorem cmpLtu (d a b : BitVec 5) : Statement (.cmpLtu d a b) := rfl
theorem cmpLe (d a b : BitVec 5) : Statement (.cmpLe d a b) := rfl
theorem cmpLeu (d a b : BitVec 5) : Statement (.cmpLeu d a b) := rfl
theorem cmpp (q : BitVec 3) (a b : BitVec 5) (m : BitVec 2) (c : BitVec 3) : Statement (.cmpp q a b m c) := rfl
theorem movi (d : BitVec 5) (i : BitVec 15) : Statement (.movi d i) := rfl
theorem movs (d : BitVec 5) (i : BitVec 15) : Statement (.movs d i) := rfl
theorem addsh (d a b m : BitVec 5) : Statement (.addsh d a b m) := rfl
theorem bfx (d a b : BitVec 5) (x : BitVec 1) : Statement (.bfx d a b x) := rfl
theorem bfi (d a b : BitVec 5) : Statement (.bfi d a b) := rfl
theorem fadd (d a b : BitVec 5) (p : Prec) (r : BitVec 3) : Statement (.fadd d a b p r) := rfl
theorem fsub (d a b : BitVec 5) (p : Prec) (r : BitVec 3) : Statement (.fsub d a b p r) := rfl
theorem fmul (d a b : BitVec 5) (p : Prec) (r : BitVec 3) : Statement (.fmul d a b p r) := rfl
theorem fdiv (d a b : BitVec 5) (p : Prec) (r : BitVec 3) : Statement (.fdiv d a b p r) := rfl
theorem fsqrt (d a : BitVec 5) (p : Prec) (r : BitVec 3) : Statement (.fsqrt d a p r) := rfl
theorem fmin (d a b : BitVec 5) (p : Prec) : Statement (.fmin d a b p) := rfl
theorem fmax (d a b : BitVec 5) (p : Prec) : Statement (.fmax d a b p) := rfl
theorem fma (d a b : BitVec 5) (p : Prec) (r : BitVec 3) : Statement (.fma d a b p r) := rfl
theorem fms (d a b : BitVec 5) (p : Prec) (r : BitVec 3) : Statement (.fms d a b p r) := rfl
theorem fnma (d a b : BitVec 5) (p : Prec) (r : BitVec 3) : Statement (.fnma d a b p r) := rfl
theorem fnms (d a b : BitVec 5) (p : Prec) (r : BitVec 3) : Statement (.fnms d a b p r) := rfl
theorem fcmp (d a b : BitVec 5) (p : Prec) : Statement (.fcmp d a b p) := rfl
theorem fclass (d a : BitVec 5) (p : Prec) : Statement (.fclass d a p) := rfl
theorem fsgnj (d a b : BitVec 5) (p : Prec) : Statement (.fsgnj d a b p) := rfl
theorem fsgnn (d a b : BitVec 5) (p : Prec) : Statement (.fsgnn d a b p) := rfl
theorem fsgnx (d a b : BitVec 5) (p : Prec) : Statement (.fsgnx d a b p) := rfl
theorem fcvtIf (d a : BitVec 5) (p : Prec) (r : BitVec 3) : Statement (.fcvtIf d a p r) := rfl
theorem fcvtFi (d a : BitVec 5) (p : Prec) (r : BitVec 3) : Statement (.fcvtFi d a p r) := rfl
theorem fcvtFf (d a : BitVec 5) (v : BitVec 1) (e p : Prec) (r : BitVec 3) : Statement (.fcvtFf d a v e p r) := rfl
theorem fmvx (d a b : BitVec 5) (p : Prec) : Statement (.fmvx d a b p) := rfl
theorem vadd (d a b : BitVec 5) (p : BitVec 3) (t : BitVec 2) : Statement (.vadd d a b p t) := rfl
theorem vsub (d a b : BitVec 5) (p : BitVec 3) (t : BitVec 2) : Statement (.vsub d a b p t) := rfl
theorem vmul (d a b : BitVec 5) (p : BitVec 3) (t : BitVec 2) : Statement (.vmul d a b p t) := rfl
theorem vfma (d a b : BitVec 5) (p : BitVec 3) (t : BitVec 2) : Statement (.vfma d a b p t) := rfl
theorem vfms (d a b : BitVec 5) (p : BitVec 3) (t : BitVec 2) : Statement (.vfms d a b p t) := rfl
theorem vfnma (d a b : BitVec 5) (p : BitVec 3) (t : BitVec 2) : Statement (.vfnma d a b p t) := rfl
theorem vrcp (d a : BitVec 5) (p : BitVec 3) (t : BitVec 2) : Statement (.vrcp d a p t) := rfl
theorem vrsqrt (d a : BitVec 5) (p : BitVec 3) (t : BitVec 2) : Statement (.vrsqrt d a p t) := rfl
theorem vexp2 (d a : BitVec 5) (p : BitVec 3) (t : BitVec 2) : Statement (.vexp2 d a p t) := rfl
theorem vmin (d a b : BitVec 5) (p : BitVec 3) (t : BitVec 2) : Statement (.vmin d a b p t) := rfl
theorem vmax (d a b : BitVec 5) (p : BitVec 3) (t : BitVec 2) : Statement (.vmax d a b p t) := rfl
theorem vabs (d a : BitVec 5) (p : BitVec 3) (t : BitVec 2) : Statement (.vabs d a p t) := rfl
theorem vneg (d a : BitVec 5) (p : BitVec 3) (t : BitVec 2) : Statement (.vneg d a p t) := rfl
theorem vand (d a b : BitVec 5) (p : BitVec 3) (t : BitVec 2) : Statement (.vand d a b p t) := rfl
theorem vor (d a b : BitVec 5) (p : BitVec 3) (t : BitVec 2) : Statement (.vor d a b p t) := rfl
theorem vxor (d a b : BitVec 5) (p : BitVec 3) (t : BitVec 2) : Statement (.vxor d a b p t) := rfl
theorem vandn (d a b : BitVec 5) (p : BitVec 3) (t : BitVec 2) : Statement (.vandn d a b p t) := rfl
theorem vshl (d a b : BitVec 5) (p : BitVec 3) (t : BitVec 2) : Statement (.vshl d a b p t) := rfl
theorem vshr (d a b : BitVec 5) (p : BitVec 3) (t : BitVec 2) : Statement (.vshr d a b p t) := rfl
theorem vsra (d a b : BitVec 5) (p : BitVec 3) (t : BitVec 2) : Statement (.vsra d a b p t) := rfl
theorem vshli (d a k : BitVec 5) (p : BitVec 3) (t : BitVec 2) : Statement (.vshli d a k p t) := rfl
theorem vshri (d a k : BitVec 5) (p : BitVec 3) (t : BitVec 2) : Statement (.vshri d a k p t) := rfl
theorem vsrai (d a k : BitVec 5) (p : BitVec 3) (t : BitVec 2) : Statement (.vsrai d a k p t) := rfl
theorem vceq (q : BitVec 3) (a b : BitVec 5) (p : BitVec 3) (t : BitVec 2) : Statement (.vceq q a b p t) := rfl
theorem vcne (q : BitVec 3) (a b : BitVec 5) (p : BitVec 3) (t : BitVec 2) : Statement (.vcne q a b p t) := rfl
theorem vclt (q : BitVec 3) (a b : BitVec 5) (p : BitVec 3) (t : BitVec 2) : Statement (.vclt q a b p t) := rfl
theorem vcle (q : BitVec 3) (a b : BitVec 5) (p : BitVec 3) (t : BitVec 2) : Statement (.vcle q a b p t) := rfl
theorem vsel (d a b : BitVec 5) (p : BitVec 3) (t : BitVec 2) : Statement (.vsel d a b p t) := rfl
theorem vperm (d a b : BitVec 5) (p : BitVec 3) (t : BitVec 2) : Statement (.vperm d a b p t) := rfl
theorem vbcast (d a : BitVec 5) (p : BitVec 3) (t : BitVec 2) : Statement (.vbcast d a p t) := rfl
theorem vext (d a b : BitVec 5) (t : BitVec 2) : Statement (.vext d a b t) := rfl
theorem vins (d a b : BitVec 5) (t : BitVec 2) : Statement (.vins d a b t) := rfl
theorem vredAdd (d a : BitVec 5) (p : BitVec 3) (t : BitVec 2) : Statement (.vredAdd d a p t) := rfl
theorem vredMax (d a : BitVec 5) (p : BitVec 3) (t : BitVec 2) : Statement (.vredMax d a p t) := rfl
theorem vredMin (d a : BitVec 5) (p : BitVec 3) (t : BitVec 2) : Statement (.vredMin d a p t) := rfl
theorem vredOr (d a : BitVec 5) (p : BitVec 3) (t : BitVec 2) : Statement (.vredOr d a p t) := rfl
theorem vcvt (d a : BitVec 5) (h : BitVec 1) (e : BitVec 2) (p : BitVec 3) (t : BitVec 2) : Statement (.vcvt d a h e p t) := rfl
theorem vcvtb (d a : BitVec 5) (r : BitVec 1) (t : BitVec 2) : Statement (.vcvtb d a r t) := rfl
theorem vpand (d a b : BitVec 3) : Statement (.vpand d a b) := rfl
theorem vpor (d a b : BitVec 3) : Statement (.vpor d a b) := rfl
theorem vpnot (d a : BitVec 3) : Statement (.vpnot d a) := rfl
theorem vpopc (d : BitVec 5) (a p : BitVec 3) (t : BitVec 2) : Statement (.vpopc d a p t) := rfl
theorem viota (d : BitVec 5) (a p : BitVec 3) (t : BitVec 2) : Statement (.viota d a p t) := rfl
theorem vmovp (d a : BitVec 5) (r : BitVec 1) (t : BitVec 2) : Statement (.vmovp d a r t) := rfl
theorem vsat (d a b : BitVec 5) (p : BitVec 3) (t : BitVec 2) : Statement (.vsat d a b p t) := rfl
theorem vdot4 (d a b : BitVec 5) (p : BitVec 3) (t : BitVec 2) : Statement (.vdot4 d a b p t) := rfl
theorem brEq (a b : BitVec 5) (i : BitVec 10) : Statement (.brEq a b i) := rfl
theorem brNe (a b : BitVec 5) (i : BitVec 10) : Statement (.brNe a b i) := rfl
theorem brLt (a b : BitVec 5) (i : BitVec 10) : Statement (.brLt a b i) := rfl
theorem brLtu (a b : BitVec 5) (i : BitVec 10) : Statement (.brLtu a b i) := rfl
theorem brGe (a b : BitVec 5) (i : BitVec 10) : Statement (.brGe a b i) := rfl
theorem brGeu (a b : BitVec 5) (i : BitVec 10) : Statement (.brGeu a b i) := rfl
theorem brp (n : BitVec 3) (m : BitVec 2) (i : BitVec 10) : Statement (.brp n m i) := rfl
theorem jmp (i : BitVec 20) : Statement (.jmp i) := rfl
theorem jal (i : BitVec 20) : Statement (.jal i) := rfl
theorem jr (d a : BitVec 5) (i : BitVec 10) : Statement (.jr d a i) := rfl
theorem trap (i : BitVec 20) : Statement (.trap i) := rfl
theorem tret : Statement .tret := rfl
theorem csrr (d : BitVec 5) (c : BitVec 10) : Statement (.csrr d c) := rfl
theorem csrw (a : BitVec 5) (c : BitVec 10) : Statement (.csrw a c) := rfl
theorem csrx (d a : BitVec 5) (c : BitVec 10) : Statement (.csrx d a c) := rfl
theorem ldB (d b : BitVec 5) (h : BitVec 4) (o : Ord) (c : Scope) (n : Hint) : Statement (.ldB d b h o c n) := rfl
theorem ldBz (d b : BitVec 5) (h : BitVec 4) (o : Ord) (c : Scope) (n : Hint) : Statement (.ldBz d b h o c n) := rfl
theorem ldH (d b : BitVec 5) (h : BitVec 4) (o : Ord) (c : Scope) (n : Hint) : Statement (.ldH d b h o c n) := rfl
theorem ldHz (d b : BitVec 5) (h : BitVec 4) (o : Ord) (c : Scope) (n : Hint) : Statement (.ldHz d b h o c n) := rfl
theorem ldW (d b : BitVec 5) (h : BitVec 4) (o : Ord) (c : Scope) (n : Hint) : Statement (.ldW d b h o c n) := rfl
theorem ldWz (d b : BitVec 5) (h : BitVec 4) (o : Ord) (c : Scope) (n : Hint) : Statement (.ldWz d b h o c n) := rfl
theorem ldD (d b : BitVec 5) (h : BitVec 4) (o : Ord) (c : Scope) (n : Hint) : Statement (.ldD d b h o c n) := rfl
theorem ldoB (d b : BitVec 5) (i : BitVec 10) : Statement (.ldoB d b i) := rfl
theorem ldoBz (d b : BitVec 5) (i : BitVec 10) : Statement (.ldoBz d b i) := rfl
theorem ldoH (d b : BitVec 5) (i : BitVec 10) : Statement (.ldoH d b i) := rfl
theorem ldoHz (d b : BitVec 5) (i : BitVec 10) : Statement (.ldoHz d b i) := rfl
theorem ldoW (d b : BitVec 5) (i : BitVec 10) : Statement (.ldoW d b i) := rfl
theorem ldoWz (d b : BitVec 5) (i : BitVec 10) : Statement (.ldoWz d b i) := rfl
theorem ldoD (d b : BitVec 5) (i : BitVec 10) : Statement (.ldoD d b i) := rfl
theorem stB (d b : BitVec 5) (h : BitVec 4) (o : Ord) (c : Scope) (n : Hint) : Statement (.stB d b h o c n) := rfl
theorem stH (d b : BitVec 5) (h : BitVec 4) (o : Ord) (c : Scope) (n : Hint) : Statement (.stH d b h o c n) := rfl
theorem stW (d b : BitVec 5) (h : BitVec 4) (o : Ord) (c : Scope) (n : Hint) : Statement (.stW d b h o c n) := rfl
theorem stD (d b : BitVec 5) (h : BitVec 4) (o : Ord) (c : Scope) (n : Hint) : Statement (.stD d b h o c n) := rfl
theorem stoB (d b : BitVec 5) (i : BitVec 10) : Statement (.stoB d b i) := rfl
theorem stoH (d b : BitVec 5) (i : BitVec 10) : Statement (.stoH d b i) := rfl
theorem stoW (d b : BitVec 5) (i : BitVec 10) : Statement (.stoW d b i) := rfl
theorem stoD (d b : BitVec 5) (i : BitVec 10) : Statement (.stoD d b i) := rfl
theorem amoAdd (d b : BitVec 5) (h : BitVec 4) (o : Ord) (c : Scope) (n : Hint) : Statement (.amoAdd d b h o c n) := rfl
theorem amoAnd (d b : BitVec 5) (h : BitVec 4) (o : Ord) (c : Scope) (n : Hint) : Statement (.amoAnd d b h o c n) := rfl
theorem amoOr (d b : BitVec 5) (h : BitVec 4) (o : Ord) (c : Scope) (n : Hint) : Statement (.amoOr d b h o c n) := rfl
theorem amoXor (d b : BitVec 5) (h : BitVec 4) (o : Ord) (c : Scope) (n : Hint) : Statement (.amoXor d b h o c n) := rfl
theorem amoMax (d b : BitVec 5) (h : BitVec 4) (o : Ord) (c : Scope) (n : Hint) : Statement (.amoMax d b h o c n) := rfl
theorem amoMin (d b : BitVec 5) (h : BitVec 4) (o : Ord) (c : Scope) (n : Hint) : Statement (.amoMin d b h o c n) := rfl
theorem amoMaxu (d b : BitVec 5) (h : BitVec 4) (o : Ord) (c : Scope) (n : Hint) : Statement (.amoMaxu d b h o c n) := rfl
theorem amoMinu (d b : BitVec 5) (h : BitVec 4) (o : Ord) (c : Scope) (n : Hint) : Statement (.amoMinu d b h o c n) := rfl
theorem amoSwap (d b : BitVec 5) (h : BitVec 4) (o : Ord) (c : Scope) (n : Hint) : Statement (.amoSwap d b h o c n) := rfl
theorem cas (d b : BitVec 5) (h : BitVec 4) (o : Ord) (c : Scope) (n : Hint) : Statement (.cas d b h o c n) := rfl
theorem hnew (h : BitVec 4) (c : Scope) : Statement (.hnew h c) := rfl
theorem hfork (h g : BitVec 4) (c : Scope) : Statement (.hfork h g c) := rfl
theorem hjoin (h g : BitVec 4) (c : Scope) : Statement (.hjoin h g c) := rfl
theorem hfree (h : BitVec 4) : Statement (.hfree h) := rfl
theorem hwait (h : BitVec 4) (c : Scope) : Statement (.hwait h c) := rfl
theorem fence (c : Scope) : Statement (.fence c) := rfl
theorem pref (b : BitVec 5) (h : BitVec 4) (o : Ord) (c : Scope) (n : Hint) : Statement (.pref b h o c n) := rfl
theorem waita (d b : BitVec 5) (h : BitVec 4) (o : Ord) (c : Scope) (n : Hint) : Statement (.waita d b h o c n) := rfl
theorem genset (d a : BitVec 5) (g : BitVec 3) : Statement (.genset d a g) := rfl
theorem migr (d a : BitVec 5) (m : BitVec 1) : Statement (.migr d a m) := rfl
theorem send (d a p : BitVec 5) (h : BitVec 4) (f : BitVec 1) : Statement (.send d a p h f) := rfl
theorem ibpop (d : BitVec 5) (h : BitVec 4) : Statement (.ibpop d h) := rfl
theorem ibpeek (d : BitVec 5) : Statement (.ibpeek d) := rfl
theorem endH : Statement .endH := rfl
theorem wdraw (d a : BitVec 5) : Statement (.wdraw d a) := rfl
theorem wret (d a : BitVec 5) : Statement (.wret d a) := rfl
theorem waudit (d a : BitVec 5) : Statement (.waudit d a) := rfl
theorem qwatch (d a : BitVec 5) (m : BitVec 1) (t : BitVec 8) : Statement (.qwatch d a m t) := rfl
theorem qnew (d a k : BitVec 5) : Statement (.qnew d a k) := rfl
theorem qenq (d a p : BitVec 5) (h : BitVec 4) (f : BitVec 1) : Statement (.qenq d a p h f) := rfl
theorem qdeq (d a : BitVec 5) (h : BitVec 4) : Statement (.qdeq d a h) := rfl
theorem qtry (d a : BitVec 5) (h : BitVec 4) : Statement (.qtry d a h) := rfl
theorem qfree (d a : BitVec 5) : Statement (.qfree d a) := rfl
theorem rackb (d a : BitVec 5) (v : BitVec 2) : Statement (.rackb d a v) := rfl
theorem bar (d a : BitVec 5) (v : BitVec 2) : Statement (.bar d a v) := rfl
theorem mcst (d a p : BitVec 5) (h : BitVec 4) (f : BitVec 1) : Statement (.mcst d a p h f) := rfl
theorem spawn (d a p : BitVec 5) (h : BitVec 4) (f : BitVec 1) : Statement (.spawn d a p h f) := rfl
theorem fget (d a : BitVec 5) (x : BitVec 1) : Statement (.fget d a x) := rfl
theorem fset (d a b : BitVec 5) : Statement (.fset d a b) := rfl
theorem fref (d a : BitVec 5) (m : BitVec 2) : Statement (.fref d a m) := rfl
theorem fdrop (a : BitVec 5) : Statement (.fdrop a) := rfl
theorem fpoll (d a : BitVec 5) : Statement (.fpoll d a) := rfl
theorem sync (m : BitVec 19) (x : BitVec 1) : Statement (.sync m x) := rfl
theorem suspend (q : BitVec 4) (m : BitVec 15) (x : BitVec 1) : Statement (.suspend q m x) := rfl
theorem yield (m : BitVec 19) (x : BitVec 1) : Statement (.yield m x) := rfl
theorem cordon (d n : BitVec 5) : Statement (.cordon d n) := rfl
theorem uncordon : Statement .uncordon := rfl
theorem qend : Statement .qend := rfl
theorem vld (d b : BitVec 5) (h : BitVec 4) (o : Ord) (c : Scope) (n : Hint) : Statement (.vld d b h o c n) := rfl
theorem vst (d b : BitVec 5) (h : BitVec 4) (o : Ord) (c : Scope) (n : Hint) : Statement (.vst d b h o c n) := rfl
theorem vgath (d a b : BitVec 5) (p : BitVec 3) (t : BitVec 2) : Statement (.vgath d a b p t) := rfl
theorem vscat (d a b : BitVec 5) (p : BitVec 3) (t : BitVec 2) : Statement (.vscat d a b p t) := rfl
theorem vamo (d : BitVec 5) (o : BitVec 2) (b : BitVec 5) (p : BitVec 3) (t : BitVec 2) : Statement (.vamo d o b p t) := rfl
theorem sbind (n : BitVec 2) (a : BitVec 5) (r : BitVec 1) : Statement (.sbind n a r) := rfl
theorem sfree (d : BitVec 5) (n : BitVec 2) : Statement (.sfree d n) := rfl
theorem vsave (d a : BitVec 5) : Statement (.vsave d a) := rfl
theorem vrest (d a : BitVec 5) : Statement (.vrest d a) := rfl
theorem copy (d a b : BitVec 5) (h : BitVec 4) : Statement (.copy d a b h) := rfl
theorem copys (a b : BitVec 5) (h : BitVec 4) : Statement (.copys a b h) := rfl
theorem copyx (a b : BitVec 5) (o : BitVec 1) (h : BitVec 4) : Statement (.copyx a b o h) := rfl
theorem ttpost (d a b : BitVec 5) (h : BitVec 4) : Statement (.ttpost d a b h) := rfl
theorem caskopen (m : BitVec 2) : Statement (.caskopen m) := rfl
theorem caskseal (m : BitVec 2) : Statement (.caskseal m) := rfl
theorem idle : Statement .idle := rfl
theorem plbw (d a b : BitVec 5) : Statement (.plbw d a b) := rfl
theorem plbinv (d a : BitVec 5) (m : BitVec 2) : Statement (.plbinv d a m) := rfl
theorem preempt (d a : BitVec 5) (m : BitVec 1) : Statement (.preempt d a m) := rfl
theorem ctxsave (d a : BitVec 5) : Statement (.ctxsave d a) := rfl
theorem ctxload (d a : BitVec 5) : Statement (.ctxload d a) := rfl
theorem wvint (d : BitVec 5) : Statement (.wvint d) := rfl
theorem errinj (d a : BitVec 5) (k : BitVec 3) : Statement (.errinj d a k) := rfl
theorem kload (d a : BitVec 5) (e : BitVec 6) : Statement (.kload d a e) := rfl
theorem kzero (d : BitVec 5) (e : BitVec 6) : Statement (.kzero d e) := rfl
theorem scrub (d a b : BitVec 5) (m : BitVec 1) : Statement (.scrub d a b m) := rfl
theorem assign (d a b : BitVec 5) : Statement (.assign d a b) := rfl
theorem release (d : BitVec 5) : Statement (.release d) := rfl
theorem linkkey (d a k : BitVec 5) : Statement (.linkkey d a k) := rfl
theorem preemptTrap : Statement .preemptTrap := rfl
theorem regionEventTrap : Statement .regionEventTrap := rfl
theorem yieldRequestArrival : Statement .yieldRequestArrival := rfl
theorem divideResult : Statement .divideResult := rfl
theorem memoryReply : Statement .memoryReply := rfl
theorem storeAcknowledge : Statement .storeAcknowledge := rfl
theorem remoteAccess : Statement .remoteAccess := rfl
theorem migrationArrival : Statement .migrationArrival := rfl
theorem forwardEntryExpire : Statement .forwardEntryExpire := rfl
theorem atomicForward : Statement .atomicForward := rfl
theorem atomicRetransmit : Statement .atomicRetransmit := rfl
theorem parkWake : Statement .parkWake := rfl
theorem parkTimeout : Statement .parkTimeout := rfl
theorem waitaWake : Statement .waitaWake := rfl
theorem caskRefreshStart : Statement .caskRefreshStart := rfl
theorem caskRefreshEnd : Statement .caskRefreshEnd := rfl
theorem handleTicket : Statement .handleTicket := rfl
theorem messageAccept : Statement .messageAccept := rfl
theorem sendCreditReturn : Statement .sendCreditReturn := rfl
theorem inboxEntryStart : Statement .inboxEntryStart := rfl
theorem spillRetry : Statement .spillRetry := rfl
theorem startAccept : Statement .startAccept := rfl
theorem sliceQueueAccept : Statement .sliceQueueAccept := rfl
theorem mcstdone : Statement .mcstdone := rfl
theorem drawRequest : Statement .drawRequest := rfl
theorem drawGrant : Statement .drawGrant := rfl
theorem weightReturn : Statement .weightReturn := rfl
theorem quiescenceDeadline : Statement .quiescenceDeadline := rfl
theorem popRequest : Statement .popRequest := rfl
theorem popServe : Statement .popServe := rfl
theorem popWithdraw : Statement .popWithdraw := rfl
theorem governorEvaluate : Statement .governorEvaluate := rfl
theorem trigger : Statement .trigger := rfl
theorem quantumEnd : Statement .quantumEnd := rfl
theorem reclaimMark : Statement .reclaimMark := rfl
theorem frameReturn : Statement .frameReturn := rfl
theorem streamFetch : Statement .streamFetch := rfl
theorem copyValidate : Statement .copyValidate := rfl
theorem copyChunk : Statement .copyChunk := rfl
theorem copydone : Statement .copydone := rfl
theorem tileTaskIssue : Statement .tileTaskIssue := rfl
theorem tiledone : Statement .tiledone := rfl
theorem tileTaskAbort : Statement .tileTaskAbort := rfl
theorem heldMessageRelease : Statement .heldMessageRelease := rfl
theorem gatewayTimeout : Statement .gatewayTimeout := rfl
theorem keyMarkerAccept : Statement .keyMarkerAccept := rfl
theorem keydue : Statement .keydue := rfl
theorem keyExhausted : Statement .keyExhausted := rfl
theorem flitAuthFail : Statement .flitAuthFail := rfl
theorem reductionCombine : Statement .reductionCombine := rfl
theorem reductionAbort : Statement .reductionAbort := rfl
theorem redcfgWrite : Statement .redcfgWrite := rfl
theorem deviceRegisterWrite : Statement .deviceRegisterWrite := rfl
theorem lcstateWrite : Statement .lcstateWrite := rfl
theorem isolateWrite : Statement .isolateWrite := rfl
theorem supergroupRepair : Statement .supergroupRepair := rfl
theorem hostRead : Statement .hostRead := rfl
theorem hostWrite : Statement .hostWrite := rfl
theorem scrubLine : Statement .scrubLine := rfl
theorem coldReset : Statement .coldReset := rfl
theorem warmReset : Statement .warmReset := rfl
theorem supergroupReset : Statement .supergroupReset := rfl
theorem clockStepDown : Statement .clockStepDown := rfl
theorem illegalInstruction : Statement .illegalInstruction := rfl
theorem fetchFault : Statement .fetchFault := rfl
theorem softError : Statement .softError := rfl
theorem fabricAccess : Statement .fabricAccess := rfl
theorem memberRegistration : Statement .memberRegistration := rfl
theorem coolantBelowLimit : Statement .coolantBelowLimit := rfl

end Sys2Proof.Laws.Coded
end

