-- ==== Sys2Proof/Laws/State.lean ====
section
/-!
SUPPORT. What each named update of the state leaves as it was: one lemma for each field; and reading a core after a core
changes.
-/
namespace Sys2Proof.Machine

/-! ## `setCore` -/

@[simp] theorem State.setCore_caps (s : State) (n : Nat) (c : Core) : (s.setCore n c).caps = s.caps := rfl
@[simp] theorem State.setCore_quarters (s : State) (n : Nat) (c : Core) : (s.setCore n c).quarters = s.quarters := rfl
@[simp] theorem State.setCore_cycle (s : State) (n : Nat) (c : Core) : (s.setCore n c).cycle = s.cycle := rfl
@[simp] theorem State.setCore_cycleLen (s : State) (n : Nat) (c : Core) : (s.setCore n c).cycleLen = s.cycleLen := rfl
@[simp] theorem State.setCore_mem (s : State) (n : Nat) (c : Core) : (s.setCore n c).mem = s.mem := rfl
@[simp] theorem State.setCore_enc (s : State) (n : Nat) (c : Core) : (s.setCore n c).enc = s.enc := rfl
@[simp] theorem State.setCore_cache (s : State) (n : Nat) (c : Core) : (s.setCore n c).cache = s.cache := rfl
@[simp] theorem State.setCore_stale (s : State) (n : Nat) (c : Core) : (s.setCore n c).stale = s.stale := rfl
@[simp] theorem State.setCore_bad (s : State) (n : Nat) (c : Core) : (s.setCore n c).bad = s.bad := rfl
@[simp] theorem State.setCore_moving (s : State) (n : Nat) (c : Core) : (s.setCore n c).moving = s.moving := rfl
@[simp] theorem State.setCore_walkroot (s : State) (n : Nat) (c : Core) : (s.setCore n c).walkroot = s.walkroot := rfl
@[simp] theorem State.setCore_caskOpen (s : State) (n : Nat) (c : Core) : (s.setCore n c).caskOpen = s.caskOpen := rfl
@[simp] theorem State.setCore_caskSealing (s : State) (n : Nat) (c : Core) : (s.setCore n c).caskSealing = s.caskSealing := rfl
@[simp] theorem State.setCore_refresh (s : State) (n : Nat) (c : Core) : (s.setCore n c).refresh = s.refresh := rfl
@[simp] theorem State.setCore_seqrs (s : State) (n : Nat) (c : Core) : (s.setCore n c).seqrs = s.seqrs := rfl
@[simp] theorem State.setCore_net (s : State) (n : Nat) (c : Core) : (s.setCore n c).net = s.net := rfl
@[simp] theorem State.setCore_heldMsgs (s : State) (n : Nat) (c : Core) : (s.setCore n c).heldMsgs = s.heldMsgs := rfl
@[simp] theorem State.setCore_queues (s : State) (n : Nat) (c : Core) : (s.setCore n c).queues = s.queues := rfl
@[simp] theorem State.setCore_ctxs (s : State) (n : Nat) (c : Core) : (s.setCore n c).ctxs = s.ctxs := rfl
@[simp] theorem State.setCore_flagAcc (s : State) (n : Nat) (c : Core) : (s.setCore n c).flagAcc = s.flagAcc := rfl
@[simp] theorem State.setCore_flagNew (s : State) (n : Nat) (c : Core) : (s.setCore n c).flagNew = s.flagNew := rfl
@[simp] theorem State.setCore_tiles (s : State) (n : Nat) (c : Core) : (s.setCore n c).tiles = s.tiles := rfl
@[simp] theorem State.setCore_links (s : State) (n : Nat) (c : Core) : (s.setCore n c).links = s.links := rfl
@[simp] theorem State.setCore_redcfg (s : State) (n : Nat) (c : Core) : (s.setCore n c).redcfg = s.redcfg := rfl
@[simp] theorem State.setCore_members (s : State) (n : Nat) (c : Core) : (s.setCore n c).members = s.members := rfl
@[simp] theorem State.setCore_replayCache (s : State) (n : Nat) (c : Core) : (s.setCore n c).replayCache = s.replayCache := rfl
@[simp] theorem State.setCore_trigstat (s : State) (n : Nat) (c : Core) : (s.setCore n c).trigstat = s.trigstat := rfl
@[simp] theorem State.setCore_scrubBusy (s : State) (n : Nat) (c : Core) : (s.setCore n c).scrubBusy = s.scrubBusy := rfl
@[simp] theorem State.setCore_scrubErr (s : State) (n : Nat) (c : Core) : (s.setCore n c).scrubErr = s.scrubErr := rfl
@[simp] theorem State.setCore_scrubCur (s : State) (n : Nat) (c : Core) : (s.setCore n c).scrubCur = s.scrubCur := rfl
@[simp] theorem State.setCore_scrubMode (s : State) (n : Nat) (c : Core) : (s.setCore n c).scrubMode = s.scrubMode := rfl
@[simp] theorem State.setCore_scrubEnd (s : State) (n : Nat) (c : Core) : (s.setCore n c).scrubEnd = s.scrubEnd := rfl
@[simp] theorem State.setCore_scrubPend (s : State) (n : Nat) (c : Core) : (s.setCore n c).scrubPend = s.scrubPend := rfl
@[simp] theorem State.setCore_rescrub (s : State) (n : Nat) (c : Core) : (s.setCore n c).rescrub = s.rescrub := rfl
@[simp] theorem State.setCore_lcstate (s : State) (n : Nat) (c : Core) : (s.setCore n c).lcstate = s.lcstate := rfl
@[simp] theorem State.setCore_isolate (s : State) (n : Nat) (c : Core) : (s.setCore n c).isolate = s.isolate := rfl
@[simp] theorem State.setCore_isolated (s : State) (n : Nat) (c : Core) : (s.setCore n c).isolated = s.isolated := rfl
@[simp] theorem State.setCore_repaired (s : State) (n : Nat) (c : Core) : (s.setCore n c).repaired = s.repaired := rfl
@[simp] theorem State.setCore_lmsIndex (s : State) (n : Nat) (c : Core) : (s.setCore n c).lmsIndex = s.lmsIndex := rfl
@[simp] theorem State.setCore_keys (s : State) (n : Nat) (c : Core) : (s.setCore n c).keys = s.keys := rfl
@[simp] theorem State.setCore_held (s : State) (n : Nat) (c : Core) : (s.setCore n c).held = s.held := rfl
@[simp] theorem State.setCore_firmware (s : State) (n : Nat) (c : Core) : (s.setCore n c).firmware = s.firmware := rfl
@[simp] theorem State.setCore_boot (s : State) (n : Nat) (c : Core) : (s.setCore n c).boot = s.boot := rfl
@[simp] theorem State.setCore_vblocks (s : State) (n : Nat) (c : Core) : (s.setCore n c).vblocks = s.vblocks := rfl
@[simp] theorem State.setCore_nextRun (s : State) (n : Nat) (c : Core) : (s.setCore n c).nextRun = s.nextRun := rfl
@[simp] theorem State.setCore_ev (s : State) (n : Nat) (c : Core) : (s.setCore n c).ev = s.ev := rfl
@[simp] theorem State.setCore_agenda (s : State) (n : Nat) (c : Core) : (s.setCore n c).agenda = s.agenda := rfl
@[simp] theorem State.setCore_hostOut (s : State) (n : Nat) (c : Core) : (s.setCore n c).hostOut = s.hostOut := rfl
@[simp] theorem State.setCore_fabOut (s : State) (n : Nat) (c : Core) : (s.setCore n c).fabOut = s.fabOut := rfl

/-! ## `setCur` -/

@[simp] theorem State.setCur_caps (s : State) (c : Core) : (s.setCur c).caps = s.caps := rfl
@[simp] theorem State.setCur_quarters (s : State) (c : Core) : (s.setCur c).quarters = s.quarters := rfl
@[simp] theorem State.setCur_cycle (s : State) (c : Core) : (s.setCur c).cycle = s.cycle := rfl
@[simp] theorem State.setCur_cycleLen (s : State) (c : Core) : (s.setCur c).cycleLen = s.cycleLen := rfl
@[simp] theorem State.setCur_mem (s : State) (c : Core) : (s.setCur c).mem = s.mem := rfl
@[simp] theorem State.setCur_enc (s : State) (c : Core) : (s.setCur c).enc = s.enc := rfl
@[simp] theorem State.setCur_cache (s : State) (c : Core) : (s.setCur c).cache = s.cache := rfl
@[simp] theorem State.setCur_stale (s : State) (c : Core) : (s.setCur c).stale = s.stale := rfl
@[simp] theorem State.setCur_bad (s : State) (c : Core) : (s.setCur c).bad = s.bad := rfl
@[simp] theorem State.setCur_moving (s : State) (c : Core) : (s.setCur c).moving = s.moving := rfl
@[simp] theorem State.setCur_walkroot (s : State) (c : Core) : (s.setCur c).walkroot = s.walkroot := rfl
@[simp] theorem State.setCur_caskOpen (s : State) (c : Core) : (s.setCur c).caskOpen = s.caskOpen := rfl
@[simp] theorem State.setCur_caskSealing (s : State) (c : Core) : (s.setCur c).caskSealing = s.caskSealing := rfl
@[simp] theorem State.setCur_refresh (s : State) (c : Core) : (s.setCur c).refresh = s.refresh := rfl
@[simp] theorem State.setCur_seqrs (s : State) (c : Core) : (s.setCur c).seqrs = s.seqrs := rfl
@[simp] theorem State.setCur_net (s : State) (c : Core) : (s.setCur c).net = s.net := rfl
@[simp] theorem State.setCur_heldMsgs (s : State) (c : Core) : (s.setCur c).heldMsgs = s.heldMsgs := rfl
@[simp] theorem State.setCur_queues (s : State) (c : Core) : (s.setCur c).queues = s.queues := rfl
@[simp] theorem State.setCur_ctxs (s : State) (c : Core) : (s.setCur c).ctxs = s.ctxs := rfl
@[simp] theorem State.setCur_flagAcc (s : State) (c : Core) : (s.setCur c).flagAcc = s.flagAcc := rfl
@[simp] theorem State.setCur_flagNew (s : State) (c : Core) : (s.setCur c).flagNew = s.flagNew := rfl
@[simp] theorem State.setCur_tiles (s : State) (c : Core) : (s.setCur c).tiles = s.tiles := rfl
@[simp] theorem State.setCur_links (s : State) (c : Core) : (s.setCur c).links = s.links := rfl
@[simp] theorem State.setCur_redcfg (s : State) (c : Core) : (s.setCur c).redcfg = s.redcfg := rfl
@[simp] theorem State.setCur_members (s : State) (c : Core) : (s.setCur c).members = s.members := rfl
@[simp] theorem State.setCur_replayCache (s : State) (c : Core) : (s.setCur c).replayCache = s.replayCache := rfl
@[simp] theorem State.setCur_trigstat (s : State) (c : Core) : (s.setCur c).trigstat = s.trigstat := rfl
@[simp] theorem State.setCur_scrubBusy (s : State) (c : Core) : (s.setCur c).scrubBusy = s.scrubBusy := rfl
@[simp] theorem State.setCur_scrubErr (s : State) (c : Core) : (s.setCur c).scrubErr = s.scrubErr := rfl
@[simp] theorem State.setCur_scrubCur (s : State) (c : Core) : (s.setCur c).scrubCur = s.scrubCur := rfl
@[simp] theorem State.setCur_scrubMode (s : State) (c : Core) : (s.setCur c).scrubMode = s.scrubMode := rfl
@[simp] theorem State.setCur_scrubEnd (s : State) (c : Core) : (s.setCur c).scrubEnd = s.scrubEnd := rfl
@[simp] theorem State.setCur_scrubPend (s : State) (c : Core) : (s.setCur c).scrubPend = s.scrubPend := rfl
@[simp] theorem State.setCur_rescrub (s : State) (c : Core) : (s.setCur c).rescrub = s.rescrub := rfl
@[simp] theorem State.setCur_lcstate (s : State) (c : Core) : (s.setCur c).lcstate = s.lcstate := rfl
@[simp] theorem State.setCur_isolate (s : State) (c : Core) : (s.setCur c).isolate = s.isolate := rfl
@[simp] theorem State.setCur_isolated (s : State) (c : Core) : (s.setCur c).isolated = s.isolated := rfl
@[simp] theorem State.setCur_repaired (s : State) (c : Core) : (s.setCur c).repaired = s.repaired := rfl
@[simp] theorem State.setCur_lmsIndex (s : State) (c : Core) : (s.setCur c).lmsIndex = s.lmsIndex := rfl
@[simp] theorem State.setCur_keys (s : State) (c : Core) : (s.setCur c).keys = s.keys := rfl
@[simp] theorem State.setCur_held (s : State) (c : Core) : (s.setCur c).held = s.held := rfl
@[simp] theorem State.setCur_firmware (s : State) (c : Core) : (s.setCur c).firmware = s.firmware := rfl
@[simp] theorem State.setCur_boot (s : State) (c : Core) : (s.setCur c).boot = s.boot := rfl
@[simp] theorem State.setCur_vblocks (s : State) (c : Core) : (s.setCur c).vblocks = s.vblocks := rfl
@[simp] theorem State.setCur_nextRun (s : State) (c : Core) : (s.setCur c).nextRun = s.nextRun := rfl
@[simp] theorem State.setCur_ev (s : State) (c : Core) : (s.setCur c).ev = s.ev := rfl
@[simp] theorem State.setCur_agenda (s : State) (c : Core) : (s.setCur c).agenda = s.agenda := rfl
@[simp] theorem State.setCur_hostOut (s : State) (c : Core) : (s.setCur c).hostOut = s.hostOut := rfl
@[simp] theorem State.setCur_fabOut (s : State) (c : Core) : (s.setCur c).fabOut = s.fabOut := rfl

/-! ## `modCur` -/

@[simp] theorem State.modCur_caps (s : State) (f : Core → Core) : (s.modCur f).caps = s.caps := rfl
@[simp] theorem State.modCur_quarters (s : State) (f : Core → Core) : (s.modCur f).quarters = s.quarters := rfl
@[simp] theorem State.modCur_cycle (s : State) (f : Core → Core) : (s.modCur f).cycle = s.cycle := rfl
@[simp] theorem State.modCur_cycleLen (s : State) (f : Core → Core) : (s.modCur f).cycleLen = s.cycleLen := rfl
@[simp] theorem State.modCur_mem (s : State) (f : Core → Core) : (s.modCur f).mem = s.mem := rfl
@[simp] theorem State.modCur_enc (s : State) (f : Core → Core) : (s.modCur f).enc = s.enc := rfl
@[simp] theorem State.modCur_cache (s : State) (f : Core → Core) : (s.modCur f).cache = s.cache := rfl
@[simp] theorem State.modCur_stale (s : State) (f : Core → Core) : (s.modCur f).stale = s.stale := rfl
@[simp] theorem State.modCur_bad (s : State) (f : Core → Core) : (s.modCur f).bad = s.bad := rfl
@[simp] theorem State.modCur_moving (s : State) (f : Core → Core) : (s.modCur f).moving = s.moving := rfl
@[simp] theorem State.modCur_walkroot (s : State) (f : Core → Core) : (s.modCur f).walkroot = s.walkroot := rfl
@[simp] theorem State.modCur_caskOpen (s : State) (f : Core → Core) : (s.modCur f).caskOpen = s.caskOpen := rfl
@[simp] theorem State.modCur_caskSealing (s : State) (f : Core → Core) : (s.modCur f).caskSealing = s.caskSealing := rfl
@[simp] theorem State.modCur_refresh (s : State) (f : Core → Core) : (s.modCur f).refresh = s.refresh := rfl
@[simp] theorem State.modCur_seqrs (s : State) (f : Core → Core) : (s.modCur f).seqrs = s.seqrs := rfl
@[simp] theorem State.modCur_net (s : State) (f : Core → Core) : (s.modCur f).net = s.net := rfl
@[simp] theorem State.modCur_heldMsgs (s : State) (f : Core → Core) : (s.modCur f).heldMsgs = s.heldMsgs := rfl
@[simp] theorem State.modCur_queues (s : State) (f : Core → Core) : (s.modCur f).queues = s.queues := rfl
@[simp] theorem State.modCur_ctxs (s : State) (f : Core → Core) : (s.modCur f).ctxs = s.ctxs := rfl
@[simp] theorem State.modCur_flagAcc (s : State) (f : Core → Core) : (s.modCur f).flagAcc = s.flagAcc := rfl
@[simp] theorem State.modCur_flagNew (s : State) (f : Core → Core) : (s.modCur f).flagNew = s.flagNew := rfl
@[simp] theorem State.modCur_tiles (s : State) (f : Core → Core) : (s.modCur f).tiles = s.tiles := rfl
@[simp] theorem State.modCur_links (s : State) (f : Core → Core) : (s.modCur f).links = s.links := rfl
@[simp] theorem State.modCur_redcfg (s : State) (f : Core → Core) : (s.modCur f).redcfg = s.redcfg := rfl
@[simp] theorem State.modCur_members (s : State) (f : Core → Core) : (s.modCur f).members = s.members := rfl
@[simp] theorem State.modCur_replayCache (s : State) (f : Core → Core) : (s.modCur f).replayCache = s.replayCache := rfl
@[simp] theorem State.modCur_trigstat (s : State) (f : Core → Core) : (s.modCur f).trigstat = s.trigstat := rfl
@[simp] theorem State.modCur_scrubBusy (s : State) (f : Core → Core) : (s.modCur f).scrubBusy = s.scrubBusy := rfl
@[simp] theorem State.modCur_scrubErr (s : State) (f : Core → Core) : (s.modCur f).scrubErr = s.scrubErr := rfl
@[simp] theorem State.modCur_scrubCur (s : State) (f : Core → Core) : (s.modCur f).scrubCur = s.scrubCur := rfl
@[simp] theorem State.modCur_scrubMode (s : State) (f : Core → Core) : (s.modCur f).scrubMode = s.scrubMode := rfl
@[simp] theorem State.modCur_scrubEnd (s : State) (f : Core → Core) : (s.modCur f).scrubEnd = s.scrubEnd := rfl
@[simp] theorem State.modCur_scrubPend (s : State) (f : Core → Core) : (s.modCur f).scrubPend = s.scrubPend := rfl
@[simp] theorem State.modCur_rescrub (s : State) (f : Core → Core) : (s.modCur f).rescrub = s.rescrub := rfl
@[simp] theorem State.modCur_lcstate (s : State) (f : Core → Core) : (s.modCur f).lcstate = s.lcstate := rfl
@[simp] theorem State.modCur_isolate (s : State) (f : Core → Core) : (s.modCur f).isolate = s.isolate := rfl
@[simp] theorem State.modCur_isolated (s : State) (f : Core → Core) : (s.modCur f).isolated = s.isolated := rfl
@[simp] theorem State.modCur_repaired (s : State) (f : Core → Core) : (s.modCur f).repaired = s.repaired := rfl
@[simp] theorem State.modCur_lmsIndex (s : State) (f : Core → Core) : (s.modCur f).lmsIndex = s.lmsIndex := rfl
@[simp] theorem State.modCur_keys (s : State) (f : Core → Core) : (s.modCur f).keys = s.keys := rfl
@[simp] theorem State.modCur_held (s : State) (f : Core → Core) : (s.modCur f).held = s.held := rfl
@[simp] theorem State.modCur_firmware (s : State) (f : Core → Core) : (s.modCur f).firmware = s.firmware := rfl
@[simp] theorem State.modCur_boot (s : State) (f : Core → Core) : (s.modCur f).boot = s.boot := rfl
@[simp] theorem State.modCur_vblocks (s : State) (f : Core → Core) : (s.modCur f).vblocks = s.vblocks := rfl
@[simp] theorem State.modCur_nextRun (s : State) (f : Core → Core) : (s.modCur f).nextRun = s.nextRun := rfl
@[simp] theorem State.modCur_ev (s : State) (f : Core → Core) : (s.modCur f).ev = s.ev := rfl
@[simp] theorem State.modCur_agenda (s : State) (f : Core → Core) : (s.modCur f).agenda = s.agenda := rfl
@[simp] theorem State.modCur_hostOut (s : State) (f : Core → Core) : (s.modCur f).hostOut = s.hostOut := rfl
@[simp] theorem State.modCur_fabOut (s : State) (f : Core → Core) : (s.modCur f).fabOut = s.fabOut := rfl

/-! ## `modCore` -/

@[simp] theorem State.modCore_caps (s : State) (n : Nat) (f : Core → Core) : (s.modCore n f).caps = s.caps := rfl
@[simp] theorem State.modCore_quarters (s : State) (n : Nat) (f : Core → Core) : (s.modCore n f).quarters = s.quarters := rfl
@[simp] theorem State.modCore_cycle (s : State) (n : Nat) (f : Core → Core) : (s.modCore n f).cycle = s.cycle := rfl
@[simp] theorem State.modCore_cycleLen (s : State) (n : Nat) (f : Core → Core) : (s.modCore n f).cycleLen = s.cycleLen := rfl
@[simp] theorem State.modCore_mem (s : State) (n : Nat) (f : Core → Core) : (s.modCore n f).mem = s.mem := rfl
@[simp] theorem State.modCore_enc (s : State) (n : Nat) (f : Core → Core) : (s.modCore n f).enc = s.enc := rfl
@[simp] theorem State.modCore_cache (s : State) (n : Nat) (f : Core → Core) : (s.modCore n f).cache = s.cache := rfl
@[simp] theorem State.modCore_stale (s : State) (n : Nat) (f : Core → Core) : (s.modCore n f).stale = s.stale := rfl
@[simp] theorem State.modCore_bad (s : State) (n : Nat) (f : Core → Core) : (s.modCore n f).bad = s.bad := rfl
@[simp] theorem State.modCore_moving (s : State) (n : Nat) (f : Core → Core) : (s.modCore n f).moving = s.moving := rfl
@[simp] theorem State.modCore_walkroot (s : State) (n : Nat) (f : Core → Core) : (s.modCore n f).walkroot = s.walkroot := rfl
@[simp] theorem State.modCore_caskOpen (s : State) (n : Nat) (f : Core → Core) : (s.modCore n f).caskOpen = s.caskOpen := rfl
@[simp] theorem State.modCore_caskSealing (s : State) (n : Nat) (f : Core → Core) : (s.modCore n f).caskSealing = s.caskSealing := rfl
@[simp] theorem State.modCore_refresh (s : State) (n : Nat) (f : Core → Core) : (s.modCore n f).refresh = s.refresh := rfl
@[simp] theorem State.modCore_seqrs (s : State) (n : Nat) (f : Core → Core) : (s.modCore n f).seqrs = s.seqrs := rfl
@[simp] theorem State.modCore_net (s : State) (n : Nat) (f : Core → Core) : (s.modCore n f).net = s.net := rfl
@[simp] theorem State.modCore_heldMsgs (s : State) (n : Nat) (f : Core → Core) : (s.modCore n f).heldMsgs = s.heldMsgs := rfl
@[simp] theorem State.modCore_queues (s : State) (n : Nat) (f : Core → Core) : (s.modCore n f).queues = s.queues := rfl
@[simp] theorem State.modCore_ctxs (s : State) (n : Nat) (f : Core → Core) : (s.modCore n f).ctxs = s.ctxs := rfl
@[simp] theorem State.modCore_flagAcc (s : State) (n : Nat) (f : Core → Core) : (s.modCore n f).flagAcc = s.flagAcc := rfl
@[simp] theorem State.modCore_flagNew (s : State) (n : Nat) (f : Core → Core) : (s.modCore n f).flagNew = s.flagNew := rfl
@[simp] theorem State.modCore_tiles (s : State) (n : Nat) (f : Core → Core) : (s.modCore n f).tiles = s.tiles := rfl
@[simp] theorem State.modCore_links (s : State) (n : Nat) (f : Core → Core) : (s.modCore n f).links = s.links := rfl
@[simp] theorem State.modCore_redcfg (s : State) (n : Nat) (f : Core → Core) : (s.modCore n f).redcfg = s.redcfg := rfl
@[simp] theorem State.modCore_members (s : State) (n : Nat) (f : Core → Core) : (s.modCore n f).members = s.members := rfl
@[simp] theorem State.modCore_replayCache (s : State) (n : Nat) (f : Core → Core) : (s.modCore n f).replayCache = s.replayCache := rfl
@[simp] theorem State.modCore_trigstat (s : State) (n : Nat) (f : Core → Core) : (s.modCore n f).trigstat = s.trigstat := rfl
@[simp] theorem State.modCore_scrubBusy (s : State) (n : Nat) (f : Core → Core) : (s.modCore n f).scrubBusy = s.scrubBusy := rfl
@[simp] theorem State.modCore_scrubErr (s : State) (n : Nat) (f : Core → Core) : (s.modCore n f).scrubErr = s.scrubErr := rfl
@[simp] theorem State.modCore_scrubCur (s : State) (n : Nat) (f : Core → Core) : (s.modCore n f).scrubCur = s.scrubCur := rfl
@[simp] theorem State.modCore_scrubMode (s : State) (n : Nat) (f : Core → Core) : (s.modCore n f).scrubMode = s.scrubMode := rfl
@[simp] theorem State.modCore_scrubEnd (s : State) (n : Nat) (f : Core → Core) : (s.modCore n f).scrubEnd = s.scrubEnd := rfl
@[simp] theorem State.modCore_scrubPend (s : State) (n : Nat) (f : Core → Core) : (s.modCore n f).scrubPend = s.scrubPend := rfl
@[simp] theorem State.modCore_rescrub (s : State) (n : Nat) (f : Core → Core) : (s.modCore n f).rescrub = s.rescrub := rfl
@[simp] theorem State.modCore_lcstate (s : State) (n : Nat) (f : Core → Core) : (s.modCore n f).lcstate = s.lcstate := rfl
@[simp] theorem State.modCore_isolate (s : State) (n : Nat) (f : Core → Core) : (s.modCore n f).isolate = s.isolate := rfl
@[simp] theorem State.modCore_isolated (s : State) (n : Nat) (f : Core → Core) : (s.modCore n f).isolated = s.isolated := rfl
@[simp] theorem State.modCore_repaired (s : State) (n : Nat) (f : Core → Core) : (s.modCore n f).repaired = s.repaired := rfl
@[simp] theorem State.modCore_lmsIndex (s : State) (n : Nat) (f : Core → Core) : (s.modCore n f).lmsIndex = s.lmsIndex := rfl
@[simp] theorem State.modCore_keys (s : State) (n : Nat) (f : Core → Core) : (s.modCore n f).keys = s.keys := rfl
@[simp] theorem State.modCore_held (s : State) (n : Nat) (f : Core → Core) : (s.modCore n f).held = s.held := rfl
@[simp] theorem State.modCore_firmware (s : State) (n : Nat) (f : Core → Core) : (s.modCore n f).firmware = s.firmware := rfl
@[simp] theorem State.modCore_boot (s : State) (n : Nat) (f : Core → Core) : (s.modCore n f).boot = s.boot := rfl
@[simp] theorem State.modCore_vblocks (s : State) (n : Nat) (f : Core → Core) : (s.modCore n f).vblocks = s.vblocks := rfl
@[simp] theorem State.modCore_nextRun (s : State) (n : Nat) (f : Core → Core) : (s.modCore n f).nextRun = s.nextRun := rfl
@[simp] theorem State.modCore_ev (s : State) (n : Nat) (f : Core → Core) : (s.modCore n f).ev = s.ev := rfl
@[simp] theorem State.modCore_agenda (s : State) (n : Nat) (f : Core → Core) : (s.modCore n f).agenda = s.agenda := rfl
@[simp] theorem State.modCore_hostOut (s : State) (n : Nat) (f : Core → Core) : (s.modCore n f).hostOut = s.hostOut := rfl
@[simp] theorem State.modCore_fabOut (s : State) (n : Nat) (f : Core → Core) : (s.modCore n f).fabOut = s.fabOut := rfl

/-! ## `setCtx` -/

@[simp] theorem State.setCtx_cores (s : State) (n : Nat) (c : Ctx) : (s.setCtx n c).cores = s.cores := rfl
@[simp] theorem State.setCtx_caps (s : State) (n : Nat) (c : Ctx) : (s.setCtx n c).caps = s.caps := rfl
@[simp] theorem State.setCtx_quarters (s : State) (n : Nat) (c : Ctx) : (s.setCtx n c).quarters = s.quarters := rfl
@[simp] theorem State.setCtx_cycle (s : State) (n : Nat) (c : Ctx) : (s.setCtx n c).cycle = s.cycle := rfl
@[simp] theorem State.setCtx_cycleLen (s : State) (n : Nat) (c : Ctx) : (s.setCtx n c).cycleLen = s.cycleLen := rfl
@[simp] theorem State.setCtx_mem (s : State) (n : Nat) (c : Ctx) : (s.setCtx n c).mem = s.mem := rfl
@[simp] theorem State.setCtx_enc (s : State) (n : Nat) (c : Ctx) : (s.setCtx n c).enc = s.enc := rfl
@[simp] theorem State.setCtx_cache (s : State) (n : Nat) (c : Ctx) : (s.setCtx n c).cache = s.cache := rfl
@[simp] theorem State.setCtx_stale (s : State) (n : Nat) (c : Ctx) : (s.setCtx n c).stale = s.stale := rfl
@[simp] theorem State.setCtx_bad (s : State) (n : Nat) (c : Ctx) : (s.setCtx n c).bad = s.bad := rfl
@[simp] theorem State.setCtx_moving (s : State) (n : Nat) (c : Ctx) : (s.setCtx n c).moving = s.moving := rfl
@[simp] theorem State.setCtx_walkroot (s : State) (n : Nat) (c : Ctx) : (s.setCtx n c).walkroot = s.walkroot := rfl
@[simp] theorem State.setCtx_caskOpen (s : State) (n : Nat) (c : Ctx) : (s.setCtx n c).caskOpen = s.caskOpen := rfl
@[simp] theorem State.setCtx_caskSealing (s : State) (n : Nat) (c : Ctx) : (s.setCtx n c).caskSealing = s.caskSealing := rfl
@[simp] theorem State.setCtx_refresh (s : State) (n : Nat) (c : Ctx) : (s.setCtx n c).refresh = s.refresh := rfl
@[simp] theorem State.setCtx_seqrs (s : State) (n : Nat) (c : Ctx) : (s.setCtx n c).seqrs = s.seqrs := rfl
@[simp] theorem State.setCtx_net (s : State) (n : Nat) (c : Ctx) : (s.setCtx n c).net = s.net := rfl
@[simp] theorem State.setCtx_heldMsgs (s : State) (n : Nat) (c : Ctx) : (s.setCtx n c).heldMsgs = s.heldMsgs := rfl
@[simp] theorem State.setCtx_queues (s : State) (n : Nat) (c : Ctx) : (s.setCtx n c).queues = s.queues := rfl
@[simp] theorem State.setCtx_flagAcc (s : State) (n : Nat) (c : Ctx) : (s.setCtx n c).flagAcc = s.flagAcc := rfl
@[simp] theorem State.setCtx_flagNew (s : State) (n : Nat) (c : Ctx) : (s.setCtx n c).flagNew = s.flagNew := rfl
@[simp] theorem State.setCtx_tiles (s : State) (n : Nat) (c : Ctx) : (s.setCtx n c).tiles = s.tiles := rfl
@[simp] theorem State.setCtx_links (s : State) (n : Nat) (c : Ctx) : (s.setCtx n c).links = s.links := rfl
@[simp] theorem State.setCtx_redcfg (s : State) (n : Nat) (c : Ctx) : (s.setCtx n c).redcfg = s.redcfg := rfl
@[simp] theorem State.setCtx_members (s : State) (n : Nat) (c : Ctx) : (s.setCtx n c).members = s.members := rfl
@[simp] theorem State.setCtx_replayCache (s : State) (n : Nat) (c : Ctx) : (s.setCtx n c).replayCache = s.replayCache := rfl
@[simp] theorem State.setCtx_trigstat (s : State) (n : Nat) (c : Ctx) : (s.setCtx n c).trigstat = s.trigstat := rfl
@[simp] theorem State.setCtx_scrubBusy (s : State) (n : Nat) (c : Ctx) : (s.setCtx n c).scrubBusy = s.scrubBusy := rfl
@[simp] theorem State.setCtx_scrubErr (s : State) (n : Nat) (c : Ctx) : (s.setCtx n c).scrubErr = s.scrubErr := rfl
@[simp] theorem State.setCtx_scrubCur (s : State) (n : Nat) (c : Ctx) : (s.setCtx n c).scrubCur = s.scrubCur := rfl
@[simp] theorem State.setCtx_scrubMode (s : State) (n : Nat) (c : Ctx) : (s.setCtx n c).scrubMode = s.scrubMode := rfl
@[simp] theorem State.setCtx_scrubEnd (s : State) (n : Nat) (c : Ctx) : (s.setCtx n c).scrubEnd = s.scrubEnd := rfl
@[simp] theorem State.setCtx_scrubPend (s : State) (n : Nat) (c : Ctx) : (s.setCtx n c).scrubPend = s.scrubPend := rfl
@[simp] theorem State.setCtx_rescrub (s : State) (n : Nat) (c : Ctx) : (s.setCtx n c).rescrub = s.rescrub := rfl
@[simp] theorem State.setCtx_lcstate (s : State) (n : Nat) (c : Ctx) : (s.setCtx n c).lcstate = s.lcstate := rfl
@[simp] theorem State.setCtx_isolate (s : State) (n : Nat) (c : Ctx) : (s.setCtx n c).isolate = s.isolate := rfl
@[simp] theorem State.setCtx_isolated (s : State) (n : Nat) (c : Ctx) : (s.setCtx n c).isolated = s.isolated := rfl
@[simp] theorem State.setCtx_repaired (s : State) (n : Nat) (c : Ctx) : (s.setCtx n c).repaired = s.repaired := rfl
@[simp] theorem State.setCtx_lmsIndex (s : State) (n : Nat) (c : Ctx) : (s.setCtx n c).lmsIndex = s.lmsIndex := rfl
@[simp] theorem State.setCtx_keys (s : State) (n : Nat) (c : Ctx) : (s.setCtx n c).keys = s.keys := rfl
@[simp] theorem State.setCtx_held (s : State) (n : Nat) (c : Ctx) : (s.setCtx n c).held = s.held := rfl
@[simp] theorem State.setCtx_firmware (s : State) (n : Nat) (c : Ctx) : (s.setCtx n c).firmware = s.firmware := rfl
@[simp] theorem State.setCtx_boot (s : State) (n : Nat) (c : Ctx) : (s.setCtx n c).boot = s.boot := rfl
@[simp] theorem State.setCtx_vblocks (s : State) (n : Nat) (c : Ctx) : (s.setCtx n c).vblocks = s.vblocks := rfl
@[simp] theorem State.setCtx_nextRun (s : State) (n : Nat) (c : Ctx) : (s.setCtx n c).nextRun = s.nextRun := rfl
@[simp] theorem State.setCtx_ev (s : State) (n : Nat) (c : Ctx) : (s.setCtx n c).ev = s.ev := rfl
@[simp] theorem State.setCtx_agenda (s : State) (n : Nat) (c : Ctx) : (s.setCtx n c).agenda = s.agenda := rfl
@[simp] theorem State.setCtx_hostOut (s : State) (n : Nat) (c : Ctx) : (s.setCtx n c).hostOut = s.hostOut := rfl
@[simp] theorem State.setCtx_fabOut (s : State) (n : Nat) (c : Ctx) : (s.setCtx n c).fabOut = s.fabOut := rfl

/-! ## `setSeqr` -/

@[simp] theorem State.setSeqr_cores (s : State) (n : W32) (q : Seqr) : (s.setSeqr n q).cores = s.cores := rfl
@[simp] theorem State.setSeqr_caps (s : State) (n : W32) (q : Seqr) : (s.setSeqr n q).caps = s.caps := rfl
@[simp] theorem State.setSeqr_quarters (s : State) (n : W32) (q : Seqr) : (s.setSeqr n q).quarters = s.quarters := rfl
@[simp] theorem State.setSeqr_cycle (s : State) (n : W32) (q : Seqr) : (s.setSeqr n q).cycle = s.cycle := rfl
@[simp] theorem State.setSeqr_cycleLen (s : State) (n : W32) (q : Seqr) : (s.setSeqr n q).cycleLen = s.cycleLen := rfl
@[simp] theorem State.setSeqr_mem (s : State) (n : W32) (q : Seqr) : (s.setSeqr n q).mem = s.mem := rfl
@[simp] theorem State.setSeqr_enc (s : State) (n : W32) (q : Seqr) : (s.setSeqr n q).enc = s.enc := rfl
@[simp] theorem State.setSeqr_cache (s : State) (n : W32) (q : Seqr) : (s.setSeqr n q).cache = s.cache := rfl
@[simp] theorem State.setSeqr_stale (s : State) (n : W32) (q : Seqr) : (s.setSeqr n q).stale = s.stale := rfl
@[simp] theorem State.setSeqr_bad (s : State) (n : W32) (q : Seqr) : (s.setSeqr n q).bad = s.bad := rfl
@[simp] theorem State.setSeqr_moving (s : State) (n : W32) (q : Seqr) : (s.setSeqr n q).moving = s.moving := rfl
@[simp] theorem State.setSeqr_walkroot (s : State) (n : W32) (q : Seqr) : (s.setSeqr n q).walkroot = s.walkroot := rfl
@[simp] theorem State.setSeqr_caskOpen (s : State) (n : W32) (q : Seqr) : (s.setSeqr n q).caskOpen = s.caskOpen := rfl
@[simp] theorem State.setSeqr_caskSealing (s : State) (n : W32) (q : Seqr) : (s.setSeqr n q).caskSealing = s.caskSealing := rfl
@[simp] theorem State.setSeqr_refresh (s : State) (n : W32) (q : Seqr) : (s.setSeqr n q).refresh = s.refresh := rfl
@[simp] theorem State.setSeqr_net (s : State) (n : W32) (q : Seqr) : (s.setSeqr n q).net = s.net := rfl
@[simp] theorem State.setSeqr_heldMsgs (s : State) (n : W32) (q : Seqr) : (s.setSeqr n q).heldMsgs = s.heldMsgs := rfl
@[simp] theorem State.setSeqr_queues (s : State) (n : W32) (q : Seqr) : (s.setSeqr n q).queues = s.queues := rfl
@[simp] theorem State.setSeqr_ctxs (s : State) (n : W32) (q : Seqr) : (s.setSeqr n q).ctxs = s.ctxs := rfl
@[simp] theorem State.setSeqr_flagAcc (s : State) (n : W32) (q : Seqr) : (s.setSeqr n q).flagAcc = s.flagAcc := rfl
@[simp] theorem State.setSeqr_flagNew (s : State) (n : W32) (q : Seqr) : (s.setSeqr n q).flagNew = s.flagNew := rfl
@[simp] theorem State.setSeqr_tiles (s : State) (n : W32) (q : Seqr) : (s.setSeqr n q).tiles = s.tiles := rfl
@[simp] theorem State.setSeqr_links (s : State) (n : W32) (q : Seqr) : (s.setSeqr n q).links = s.links := rfl
@[simp] theorem State.setSeqr_redcfg (s : State) (n : W32) (q : Seqr) : (s.setSeqr n q).redcfg = s.redcfg := rfl
@[simp] theorem State.setSeqr_members (s : State) (n : W32) (q : Seqr) : (s.setSeqr n q).members = s.members := rfl
@[simp] theorem State.setSeqr_replayCache (s : State) (n : W32) (q : Seqr) : (s.setSeqr n q).replayCache = s.replayCache := rfl
@[simp] theorem State.setSeqr_trigstat (s : State) (n : W32) (q : Seqr) : (s.setSeqr n q).trigstat = s.trigstat := rfl
@[simp] theorem State.setSeqr_scrubBusy (s : State) (n : W32) (q : Seqr) : (s.setSeqr n q).scrubBusy = s.scrubBusy := rfl
@[simp] theorem State.setSeqr_scrubErr (s : State) (n : W32) (q : Seqr) : (s.setSeqr n q).scrubErr = s.scrubErr := rfl
@[simp] theorem State.setSeqr_scrubCur (s : State) (n : W32) (q : Seqr) : (s.setSeqr n q).scrubCur = s.scrubCur := rfl
@[simp] theorem State.setSeqr_scrubMode (s : State) (n : W32) (q : Seqr) : (s.setSeqr n q).scrubMode = s.scrubMode := rfl
@[simp] theorem State.setSeqr_scrubEnd (s : State) (n : W32) (q : Seqr) : (s.setSeqr n q).scrubEnd = s.scrubEnd := rfl
@[simp] theorem State.setSeqr_scrubPend (s : State) (n : W32) (q : Seqr) : (s.setSeqr n q).scrubPend = s.scrubPend := rfl
@[simp] theorem State.setSeqr_rescrub (s : State) (n : W32) (q : Seqr) : (s.setSeqr n q).rescrub = s.rescrub := rfl
@[simp] theorem State.setSeqr_lcstate (s : State) (n : W32) (q : Seqr) : (s.setSeqr n q).lcstate = s.lcstate := rfl
@[simp] theorem State.setSeqr_isolate (s : State) (n : W32) (q : Seqr) : (s.setSeqr n q).isolate = s.isolate := rfl
@[simp] theorem State.setSeqr_isolated (s : State) (n : W32) (q : Seqr) : (s.setSeqr n q).isolated = s.isolated := rfl
@[simp] theorem State.setSeqr_repaired (s : State) (n : W32) (q : Seqr) : (s.setSeqr n q).repaired = s.repaired := rfl
@[simp] theorem State.setSeqr_lmsIndex (s : State) (n : W32) (q : Seqr) : (s.setSeqr n q).lmsIndex = s.lmsIndex := rfl
@[simp] theorem State.setSeqr_keys (s : State) (n : W32) (q : Seqr) : (s.setSeqr n q).keys = s.keys := rfl
@[simp] theorem State.setSeqr_held (s : State) (n : W32) (q : Seqr) : (s.setSeqr n q).held = s.held := rfl
@[simp] theorem State.setSeqr_firmware (s : State) (n : W32) (q : Seqr) : (s.setSeqr n q).firmware = s.firmware := rfl
@[simp] theorem State.setSeqr_boot (s : State) (n : W32) (q : Seqr) : (s.setSeqr n q).boot = s.boot := rfl
@[simp] theorem State.setSeqr_vblocks (s : State) (n : W32) (q : Seqr) : (s.setSeqr n q).vblocks = s.vblocks := rfl
@[simp] theorem State.setSeqr_nextRun (s : State) (n : W32) (q : Seqr) : (s.setSeqr n q).nextRun = s.nextRun := rfl
@[simp] theorem State.setSeqr_ev (s : State) (n : W32) (q : Seqr) : (s.setSeqr n q).ev = s.ev := rfl
@[simp] theorem State.setSeqr_agenda (s : State) (n : W32) (q : Seqr) : (s.setSeqr n q).agenda = s.agenda := rfl
@[simp] theorem State.setSeqr_hostOut (s : State) (n : W32) (q : Seqr) : (s.setSeqr n q).hostOut = s.hostOut := rfl
@[simp] theorem State.setSeqr_fabOut (s : State) (n : W32) (q : Seqr) : (s.setSeqr n q).fabOut = s.fabOut := rfl

/-! ## `setQueue` -/

@[simp] theorem State.setQueue_cores (s : State) (h : W32) (q : Queue) : (s.setQueue h q).cores = s.cores := rfl
@[simp] theorem State.setQueue_caps (s : State) (h : W32) (q : Queue) : (s.setQueue h q).caps = s.caps := rfl
@[simp] theorem State.setQueue_quarters (s : State) (h : W32) (q : Queue) : (s.setQueue h q).quarters = s.quarters := rfl
@[simp] theorem State.setQueue_cycle (s : State) (h : W32) (q : Queue) : (s.setQueue h q).cycle = s.cycle := rfl
@[simp] theorem State.setQueue_cycleLen (s : State) (h : W32) (q : Queue) : (s.setQueue h q).cycleLen = s.cycleLen := rfl
@[simp] theorem State.setQueue_mem (s : State) (h : W32) (q : Queue) : (s.setQueue h q).mem = s.mem := rfl
@[simp] theorem State.setQueue_enc (s : State) (h : W32) (q : Queue) : (s.setQueue h q).enc = s.enc := rfl
@[simp] theorem State.setQueue_cache (s : State) (h : W32) (q : Queue) : (s.setQueue h q).cache = s.cache := rfl
@[simp] theorem State.setQueue_stale (s : State) (h : W32) (q : Queue) : (s.setQueue h q).stale = s.stale := rfl
@[simp] theorem State.setQueue_bad (s : State) (h : W32) (q : Queue) : (s.setQueue h q).bad = s.bad := rfl
@[simp] theorem State.setQueue_moving (s : State) (h : W32) (q : Queue) : (s.setQueue h q).moving = s.moving := rfl
@[simp] theorem State.setQueue_walkroot (s : State) (h : W32) (q : Queue) : (s.setQueue h q).walkroot = s.walkroot := rfl
@[simp] theorem State.setQueue_caskOpen (s : State) (h : W32) (q : Queue) : (s.setQueue h q).caskOpen = s.caskOpen := rfl
@[simp] theorem State.setQueue_caskSealing (s : State) (h : W32) (q : Queue) : (s.setQueue h q).caskSealing = s.caskSealing := rfl
@[simp] theorem State.setQueue_refresh (s : State) (h : W32) (q : Queue) : (s.setQueue h q).refresh = s.refresh := rfl
@[simp] theorem State.setQueue_seqrs (s : State) (h : W32) (q : Queue) : (s.setQueue h q).seqrs = s.seqrs := rfl
@[simp] theorem State.setQueue_net (s : State) (h : W32) (q : Queue) : (s.setQueue h q).net = s.net := rfl
@[simp] theorem State.setQueue_heldMsgs (s : State) (h : W32) (q : Queue) : (s.setQueue h q).heldMsgs = s.heldMsgs := rfl
@[simp] theorem State.setQueue_ctxs (s : State) (h : W32) (q : Queue) : (s.setQueue h q).ctxs = s.ctxs := rfl
@[simp] theorem State.setQueue_flagAcc (s : State) (h : W32) (q : Queue) : (s.setQueue h q).flagAcc = s.flagAcc := rfl
@[simp] theorem State.setQueue_flagNew (s : State) (h : W32) (q : Queue) : (s.setQueue h q).flagNew = s.flagNew := rfl
@[simp] theorem State.setQueue_tiles (s : State) (h : W32) (q : Queue) : (s.setQueue h q).tiles = s.tiles := rfl
@[simp] theorem State.setQueue_links (s : State) (h : W32) (q : Queue) : (s.setQueue h q).links = s.links := rfl
@[simp] theorem State.setQueue_redcfg (s : State) (h : W32) (q : Queue) : (s.setQueue h q).redcfg = s.redcfg := rfl
@[simp] theorem State.setQueue_members (s : State) (h : W32) (q : Queue) : (s.setQueue h q).members = s.members := rfl
@[simp] theorem State.setQueue_replayCache (s : State) (h : W32) (q : Queue) : (s.setQueue h q).replayCache = s.replayCache := rfl
@[simp] theorem State.setQueue_trigstat (s : State) (h : W32) (q : Queue) : (s.setQueue h q).trigstat = s.trigstat := rfl
@[simp] theorem State.setQueue_scrubBusy (s : State) (h : W32) (q : Queue) : (s.setQueue h q).scrubBusy = s.scrubBusy := rfl
@[simp] theorem State.setQueue_scrubErr (s : State) (h : W32) (q : Queue) : (s.setQueue h q).scrubErr = s.scrubErr := rfl
@[simp] theorem State.setQueue_scrubCur (s : State) (h : W32) (q : Queue) : (s.setQueue h q).scrubCur = s.scrubCur := rfl
@[simp] theorem State.setQueue_scrubMode (s : State) (h : W32) (q : Queue) : (s.setQueue h q).scrubMode = s.scrubMode := rfl
@[simp] theorem State.setQueue_scrubEnd (s : State) (h : W32) (q : Queue) : (s.setQueue h q).scrubEnd = s.scrubEnd := rfl
@[simp] theorem State.setQueue_scrubPend (s : State) (h : W32) (q : Queue) : (s.setQueue h q).scrubPend = s.scrubPend := rfl
@[simp] theorem State.setQueue_rescrub (s : State) (h : W32) (q : Queue) : (s.setQueue h q).rescrub = s.rescrub := rfl
@[simp] theorem State.setQueue_lcstate (s : State) (h : W32) (q : Queue) : (s.setQueue h q).lcstate = s.lcstate := rfl
@[simp] theorem State.setQueue_isolate (s : State) (h : W32) (q : Queue) : (s.setQueue h q).isolate = s.isolate := rfl
@[simp] theorem State.setQueue_isolated (s : State) (h : W32) (q : Queue) : (s.setQueue h q).isolated = s.isolated := rfl
@[simp] theorem State.setQueue_repaired (s : State) (h : W32) (q : Queue) : (s.setQueue h q).repaired = s.repaired := rfl
@[simp] theorem State.setQueue_lmsIndex (s : State) (h : W32) (q : Queue) : (s.setQueue h q).lmsIndex = s.lmsIndex := rfl
@[simp] theorem State.setQueue_keys (s : State) (h : W32) (q : Queue) : (s.setQueue h q).keys = s.keys := rfl
@[simp] theorem State.setQueue_held (s : State) (h : W32) (q : Queue) : (s.setQueue h q).held = s.held := rfl
@[simp] theorem State.setQueue_firmware (s : State) (h : W32) (q : Queue) : (s.setQueue h q).firmware = s.firmware := rfl
@[simp] theorem State.setQueue_boot (s : State) (h : W32) (q : Queue) : (s.setQueue h q).boot = s.boot := rfl
@[simp] theorem State.setQueue_vblocks (s : State) (h : W32) (q : Queue) : (s.setQueue h q).vblocks = s.vblocks := rfl
@[simp] theorem State.setQueue_nextRun (s : State) (h : W32) (q : Queue) : (s.setQueue h q).nextRun = s.nextRun := rfl
@[simp] theorem State.setQueue_ev (s : State) (h : W32) (q : Queue) : (s.setQueue h q).ev = s.ev := rfl
@[simp] theorem State.setQueue_agenda (s : State) (h : W32) (q : Queue) : (s.setQueue h q).agenda = s.agenda := rfl
@[simp] theorem State.setQueue_hostOut (s : State) (h : W32) (q : Queue) : (s.setQueue h q).hostOut = s.hostOut := rfl
@[simp] theorem State.setQueue_fabOut (s : State) (h : W32) (q : Queue) : (s.setQueue h q).fabOut = s.fabOut := rfl

/-! ## `setTasks` -/

@[simp] theorem State.setTasks_cores (s : State) (n : Nat) (l : List TileTask) : (s.setTasks n l).cores = s.cores := rfl
@[simp] theorem State.setTasks_caps (s : State) (n : Nat) (l : List TileTask) : (s.setTasks n l).caps = s.caps := rfl
@[simp] theorem State.setTasks_quarters (s : State) (n : Nat) (l : List TileTask) : (s.setTasks n l).quarters = s.quarters := rfl
@[simp] theorem State.setTasks_cycle (s : State) (n : Nat) (l : List TileTask) : (s.setTasks n l).cycle = s.cycle := rfl
@[simp] theorem State.setTasks_cycleLen (s : State) (n : Nat) (l : List TileTask) : (s.setTasks n l).cycleLen = s.cycleLen := rfl
@[simp] theorem State.setTasks_mem (s : State) (n : Nat) (l : List TileTask) : (s.setTasks n l).mem = s.mem := rfl
@[simp] theorem State.setTasks_enc (s : State) (n : Nat) (l : List TileTask) : (s.setTasks n l).enc = s.enc := rfl
@[simp] theorem State.setTasks_cache (s : State) (n : Nat) (l : List TileTask) : (s.setTasks n l).cache = s.cache := rfl
@[simp] theorem State.setTasks_stale (s : State) (n : Nat) (l : List TileTask) : (s.setTasks n l).stale = s.stale := rfl
@[simp] theorem State.setTasks_bad (s : State) (n : Nat) (l : List TileTask) : (s.setTasks n l).bad = s.bad := rfl
@[simp] theorem State.setTasks_moving (s : State) (n : Nat) (l : List TileTask) : (s.setTasks n l).moving = s.moving := rfl
@[simp] theorem State.setTasks_walkroot (s : State) (n : Nat) (l : List TileTask) : (s.setTasks n l).walkroot = s.walkroot := rfl
@[simp] theorem State.setTasks_caskOpen (s : State) (n : Nat) (l : List TileTask) : (s.setTasks n l).caskOpen = s.caskOpen := rfl
@[simp] theorem State.setTasks_caskSealing (s : State) (n : Nat) (l : List TileTask) : (s.setTasks n l).caskSealing = s.caskSealing := rfl
@[simp] theorem State.setTasks_refresh (s : State) (n : Nat) (l : List TileTask) : (s.setTasks n l).refresh = s.refresh := rfl
@[simp] theorem State.setTasks_seqrs (s : State) (n : Nat) (l : List TileTask) : (s.setTasks n l).seqrs = s.seqrs := rfl
@[simp] theorem State.setTasks_net (s : State) (n : Nat) (l : List TileTask) : (s.setTasks n l).net = s.net := rfl
@[simp] theorem State.setTasks_heldMsgs (s : State) (n : Nat) (l : List TileTask) : (s.setTasks n l).heldMsgs = s.heldMsgs := rfl
@[simp] theorem State.setTasks_queues (s : State) (n : Nat) (l : List TileTask) : (s.setTasks n l).queues = s.queues := rfl
@[simp] theorem State.setTasks_ctxs (s : State) (n : Nat) (l : List TileTask) : (s.setTasks n l).ctxs = s.ctxs := rfl
@[simp] theorem State.setTasks_flagAcc (s : State) (n : Nat) (l : List TileTask) : (s.setTasks n l).flagAcc = s.flagAcc := rfl
@[simp] theorem State.setTasks_flagNew (s : State) (n : Nat) (l : List TileTask) : (s.setTasks n l).flagNew = s.flagNew := rfl
@[simp] theorem State.setTasks_links (s : State) (n : Nat) (l : List TileTask) : (s.setTasks n l).links = s.links := rfl
@[simp] theorem State.setTasks_redcfg (s : State) (n : Nat) (l : List TileTask) : (s.setTasks n l).redcfg = s.redcfg := rfl
@[simp] theorem State.setTasks_members (s : State) (n : Nat) (l : List TileTask) : (s.setTasks n l).members = s.members := rfl
@[simp] theorem State.setTasks_replayCache (s : State) (n : Nat) (l : List TileTask) : (s.setTasks n l).replayCache = s.replayCache := rfl
@[simp] theorem State.setTasks_trigstat (s : State) (n : Nat) (l : List TileTask) : (s.setTasks n l).trigstat = s.trigstat := rfl
@[simp] theorem State.setTasks_scrubBusy (s : State) (n : Nat) (l : List TileTask) : (s.setTasks n l).scrubBusy = s.scrubBusy := rfl
@[simp] theorem State.setTasks_scrubErr (s : State) (n : Nat) (l : List TileTask) : (s.setTasks n l).scrubErr = s.scrubErr := rfl
@[simp] theorem State.setTasks_scrubCur (s : State) (n : Nat) (l : List TileTask) : (s.setTasks n l).scrubCur = s.scrubCur := rfl
@[simp] theorem State.setTasks_scrubMode (s : State) (n : Nat) (l : List TileTask) : (s.setTasks n l).scrubMode = s.scrubMode := rfl
@[simp] theorem State.setTasks_scrubEnd (s : State) (n : Nat) (l : List TileTask) : (s.setTasks n l).scrubEnd = s.scrubEnd := rfl
@[simp] theorem State.setTasks_scrubPend (s : State) (n : Nat) (l : List TileTask) : (s.setTasks n l).scrubPend = s.scrubPend := rfl
@[simp] theorem State.setTasks_rescrub (s : State) (n : Nat) (l : List TileTask) : (s.setTasks n l).rescrub = s.rescrub := rfl
@[simp] theorem State.setTasks_lcstate (s : State) (n : Nat) (l : List TileTask) : (s.setTasks n l).lcstate = s.lcstate := rfl
@[simp] theorem State.setTasks_isolate (s : State) (n : Nat) (l : List TileTask) : (s.setTasks n l).isolate = s.isolate := rfl
@[simp] theorem State.setTasks_isolated (s : State) (n : Nat) (l : List TileTask) : (s.setTasks n l).isolated = s.isolated := rfl
@[simp] theorem State.setTasks_repaired (s : State) (n : Nat) (l : List TileTask) : (s.setTasks n l).repaired = s.repaired := rfl
@[simp] theorem State.setTasks_lmsIndex (s : State) (n : Nat) (l : List TileTask) : (s.setTasks n l).lmsIndex = s.lmsIndex := rfl
@[simp] theorem State.setTasks_keys (s : State) (n : Nat) (l : List TileTask) : (s.setTasks n l).keys = s.keys := rfl
@[simp] theorem State.setTasks_held (s : State) (n : Nat) (l : List TileTask) : (s.setTasks n l).held = s.held := rfl
@[simp] theorem State.setTasks_firmware (s : State) (n : Nat) (l : List TileTask) : (s.setTasks n l).firmware = s.firmware := rfl
@[simp] theorem State.setTasks_boot (s : State) (n : Nat) (l : List TileTask) : (s.setTasks n l).boot = s.boot := rfl
@[simp] theorem State.setTasks_vblocks (s : State) (n : Nat) (l : List TileTask) : (s.setTasks n l).vblocks = s.vblocks := rfl
@[simp] theorem State.setTasks_nextRun (s : State) (n : Nat) (l : List TileTask) : (s.setTasks n l).nextRun = s.nextRun := rfl
@[simp] theorem State.setTasks_ev (s : State) (n : Nat) (l : List TileTask) : (s.setTasks n l).ev = s.ev := rfl
@[simp] theorem State.setTasks_agenda (s : State) (n : Nat) (l : List TileTask) : (s.setTasks n l).agenda = s.agenda := rfl
@[simp] theorem State.setTasks_hostOut (s : State) (n : Nat) (l : List TileTask) : (s.setTasks n l).hostOut = s.hostOut := rfl
@[simp] theorem State.setTasks_fabOut (s : State) (n : Nat) (l : List TileTask) : (s.setTasks n l).fabOut = s.fabOut := rfl

/-! ## `setTask` -/

@[simp] theorem State.setTask_cores (s : State) (n i : Nat) (l : TileTask) : (s.setTask n i l).cores = s.cores := rfl
@[simp] theorem State.setTask_caps (s : State) (n i : Nat) (l : TileTask) : (s.setTask n i l).caps = s.caps := rfl
@[simp] theorem State.setTask_quarters (s : State) (n i : Nat) (l : TileTask) : (s.setTask n i l).quarters = s.quarters := rfl
@[simp] theorem State.setTask_cycle (s : State) (n i : Nat) (l : TileTask) : (s.setTask n i l).cycle = s.cycle := rfl
@[simp] theorem State.setTask_cycleLen (s : State) (n i : Nat) (l : TileTask) : (s.setTask n i l).cycleLen = s.cycleLen := rfl
@[simp] theorem State.setTask_mem (s : State) (n i : Nat) (l : TileTask) : (s.setTask n i l).mem = s.mem := rfl
@[simp] theorem State.setTask_enc (s : State) (n i : Nat) (l : TileTask) : (s.setTask n i l).enc = s.enc := rfl
@[simp] theorem State.setTask_cache (s : State) (n i : Nat) (l : TileTask) : (s.setTask n i l).cache = s.cache := rfl
@[simp] theorem State.setTask_stale (s : State) (n i : Nat) (l : TileTask) : (s.setTask n i l).stale = s.stale := rfl
@[simp] theorem State.setTask_bad (s : State) (n i : Nat) (l : TileTask) : (s.setTask n i l).bad = s.bad := rfl
@[simp] theorem State.setTask_moving (s : State) (n i : Nat) (l : TileTask) : (s.setTask n i l).moving = s.moving := rfl
@[simp] theorem State.setTask_walkroot (s : State) (n i : Nat) (l : TileTask) : (s.setTask n i l).walkroot = s.walkroot := rfl
@[simp] theorem State.setTask_caskOpen (s : State) (n i : Nat) (l : TileTask) : (s.setTask n i l).caskOpen = s.caskOpen := rfl
@[simp] theorem State.setTask_caskSealing (s : State) (n i : Nat) (l : TileTask) : (s.setTask n i l).caskSealing = s.caskSealing := rfl
@[simp] theorem State.setTask_refresh (s : State) (n i : Nat) (l : TileTask) : (s.setTask n i l).refresh = s.refresh := rfl
@[simp] theorem State.setTask_seqrs (s : State) (n i : Nat) (l : TileTask) : (s.setTask n i l).seqrs = s.seqrs := rfl
@[simp] theorem State.setTask_net (s : State) (n i : Nat) (l : TileTask) : (s.setTask n i l).net = s.net := rfl
@[simp] theorem State.setTask_heldMsgs (s : State) (n i : Nat) (l : TileTask) : (s.setTask n i l).heldMsgs = s.heldMsgs := rfl
@[simp] theorem State.setTask_queues (s : State) (n i : Nat) (l : TileTask) : (s.setTask n i l).queues = s.queues := rfl
@[simp] theorem State.setTask_ctxs (s : State) (n i : Nat) (l : TileTask) : (s.setTask n i l).ctxs = s.ctxs := rfl
@[simp] theorem State.setTask_flagAcc (s : State) (n i : Nat) (l : TileTask) : (s.setTask n i l).flagAcc = s.flagAcc := rfl
@[simp] theorem State.setTask_flagNew (s : State) (n i : Nat) (l : TileTask) : (s.setTask n i l).flagNew = s.flagNew := rfl
@[simp] theorem State.setTask_links (s : State) (n i : Nat) (l : TileTask) : (s.setTask n i l).links = s.links := rfl
@[simp] theorem State.setTask_redcfg (s : State) (n i : Nat) (l : TileTask) : (s.setTask n i l).redcfg = s.redcfg := rfl
@[simp] theorem State.setTask_members (s : State) (n i : Nat) (l : TileTask) : (s.setTask n i l).members = s.members := rfl
@[simp] theorem State.setTask_replayCache (s : State) (n i : Nat) (l : TileTask) : (s.setTask n i l).replayCache = s.replayCache := rfl
@[simp] theorem State.setTask_trigstat (s : State) (n i : Nat) (l : TileTask) : (s.setTask n i l).trigstat = s.trigstat := rfl
@[simp] theorem State.setTask_scrubBusy (s : State) (n i : Nat) (l : TileTask) : (s.setTask n i l).scrubBusy = s.scrubBusy := rfl
@[simp] theorem State.setTask_scrubErr (s : State) (n i : Nat) (l : TileTask) : (s.setTask n i l).scrubErr = s.scrubErr := rfl
@[simp] theorem State.setTask_scrubCur (s : State) (n i : Nat) (l : TileTask) : (s.setTask n i l).scrubCur = s.scrubCur := rfl
@[simp] theorem State.setTask_scrubMode (s : State) (n i : Nat) (l : TileTask) : (s.setTask n i l).scrubMode = s.scrubMode := rfl
@[simp] theorem State.setTask_scrubEnd (s : State) (n i : Nat) (l : TileTask) : (s.setTask n i l).scrubEnd = s.scrubEnd := rfl
@[simp] theorem State.setTask_scrubPend (s : State) (n i : Nat) (l : TileTask) : (s.setTask n i l).scrubPend = s.scrubPend := rfl
@[simp] theorem State.setTask_rescrub (s : State) (n i : Nat) (l : TileTask) : (s.setTask n i l).rescrub = s.rescrub := rfl
@[simp] theorem State.setTask_lcstate (s : State) (n i : Nat) (l : TileTask) : (s.setTask n i l).lcstate = s.lcstate := rfl
@[simp] theorem State.setTask_isolate (s : State) (n i : Nat) (l : TileTask) : (s.setTask n i l).isolate = s.isolate := rfl
@[simp] theorem State.setTask_isolated (s : State) (n i : Nat) (l : TileTask) : (s.setTask n i l).isolated = s.isolated := rfl
@[simp] theorem State.setTask_repaired (s : State) (n i : Nat) (l : TileTask) : (s.setTask n i l).repaired = s.repaired := rfl
@[simp] theorem State.setTask_lmsIndex (s : State) (n i : Nat) (l : TileTask) : (s.setTask n i l).lmsIndex = s.lmsIndex := rfl
@[simp] theorem State.setTask_keys (s : State) (n i : Nat) (l : TileTask) : (s.setTask n i l).keys = s.keys := rfl
@[simp] theorem State.setTask_held (s : State) (n i : Nat) (l : TileTask) : (s.setTask n i l).held = s.held := rfl
@[simp] theorem State.setTask_firmware (s : State) (n i : Nat) (l : TileTask) : (s.setTask n i l).firmware = s.firmware := rfl
@[simp] theorem State.setTask_boot (s : State) (n i : Nat) (l : TileTask) : (s.setTask n i l).boot = s.boot := rfl
@[simp] theorem State.setTask_vblocks (s : State) (n i : Nat) (l : TileTask) : (s.setTask n i l).vblocks = s.vblocks := rfl
@[simp] theorem State.setTask_nextRun (s : State) (n i : Nat) (l : TileTask) : (s.setTask n i l).nextRun = s.nextRun := rfl
@[simp] theorem State.setTask_ev (s : State) (n i : Nat) (l : TileTask) : (s.setTask n i l).ev = s.ev := rfl
@[simp] theorem State.setTask_agenda (s : State) (n i : Nat) (l : TileTask) : (s.setTask n i l).agenda = s.agenda := rfl
@[simp] theorem State.setTask_hostOut (s : State) (n i : Nat) (l : TileTask) : (s.setTask n i l).hostOut = s.hostOut := rfl
@[simp] theorem State.setTask_fabOut (s : State) (n i : Nat) (l : TileTask) : (s.setTask n i l).fabOut = s.fabOut := rfl

/-! ## `setLink` -/

@[simp] theorem State.setLink_cores (s : State) (n : Nat) (l : Link) : (s.setLink n l).cores = s.cores := rfl
@[simp] theorem State.setLink_caps (s : State) (n : Nat) (l : Link) : (s.setLink n l).caps = s.caps := rfl
@[simp] theorem State.setLink_quarters (s : State) (n : Nat) (l : Link) : (s.setLink n l).quarters = s.quarters := rfl
@[simp] theorem State.setLink_cycle (s : State) (n : Nat) (l : Link) : (s.setLink n l).cycle = s.cycle := rfl
@[simp] theorem State.setLink_cycleLen (s : State) (n : Nat) (l : Link) : (s.setLink n l).cycleLen = s.cycleLen := rfl
@[simp] theorem State.setLink_mem (s : State) (n : Nat) (l : Link) : (s.setLink n l).mem = s.mem := rfl
@[simp] theorem State.setLink_enc (s : State) (n : Nat) (l : Link) : (s.setLink n l).enc = s.enc := rfl
@[simp] theorem State.setLink_cache (s : State) (n : Nat) (l : Link) : (s.setLink n l).cache = s.cache := rfl
@[simp] theorem State.setLink_stale (s : State) (n : Nat) (l : Link) : (s.setLink n l).stale = s.stale := rfl
@[simp] theorem State.setLink_bad (s : State) (n : Nat) (l : Link) : (s.setLink n l).bad = s.bad := rfl
@[simp] theorem State.setLink_moving (s : State) (n : Nat) (l : Link) : (s.setLink n l).moving = s.moving := rfl
@[simp] theorem State.setLink_walkroot (s : State) (n : Nat) (l : Link) : (s.setLink n l).walkroot = s.walkroot := rfl
@[simp] theorem State.setLink_caskOpen (s : State) (n : Nat) (l : Link) : (s.setLink n l).caskOpen = s.caskOpen := rfl
@[simp] theorem State.setLink_caskSealing (s : State) (n : Nat) (l : Link) : (s.setLink n l).caskSealing = s.caskSealing := rfl
@[simp] theorem State.setLink_refresh (s : State) (n : Nat) (l : Link) : (s.setLink n l).refresh = s.refresh := rfl
@[simp] theorem State.setLink_seqrs (s : State) (n : Nat) (l : Link) : (s.setLink n l).seqrs = s.seqrs := rfl
@[simp] theorem State.setLink_net (s : State) (n : Nat) (l : Link) : (s.setLink n l).net = s.net := rfl
@[simp] theorem State.setLink_heldMsgs (s : State) (n : Nat) (l : Link) : (s.setLink n l).heldMsgs = s.heldMsgs := rfl
@[simp] theorem State.setLink_queues (s : State) (n : Nat) (l : Link) : (s.setLink n l).queues = s.queues := rfl
@[simp] theorem State.setLink_ctxs (s : State) (n : Nat) (l : Link) : (s.setLink n l).ctxs = s.ctxs := rfl
@[simp] theorem State.setLink_flagAcc (s : State) (n : Nat) (l : Link) : (s.setLink n l).flagAcc = s.flagAcc := rfl
@[simp] theorem State.setLink_flagNew (s : State) (n : Nat) (l : Link) : (s.setLink n l).flagNew = s.flagNew := rfl
@[simp] theorem State.setLink_tiles (s : State) (n : Nat) (l : Link) : (s.setLink n l).tiles = s.tiles := rfl
@[simp] theorem State.setLink_redcfg (s : State) (n : Nat) (l : Link) : (s.setLink n l).redcfg = s.redcfg := rfl
@[simp] theorem State.setLink_members (s : State) (n : Nat) (l : Link) : (s.setLink n l).members = s.members := rfl
@[simp] theorem State.setLink_replayCache (s : State) (n : Nat) (l : Link) : (s.setLink n l).replayCache = s.replayCache := rfl
@[simp] theorem State.setLink_trigstat (s : State) (n : Nat) (l : Link) : (s.setLink n l).trigstat = s.trigstat := rfl
@[simp] theorem State.setLink_scrubBusy (s : State) (n : Nat) (l : Link) : (s.setLink n l).scrubBusy = s.scrubBusy := rfl
@[simp] theorem State.setLink_scrubErr (s : State) (n : Nat) (l : Link) : (s.setLink n l).scrubErr = s.scrubErr := rfl
@[simp] theorem State.setLink_scrubCur (s : State) (n : Nat) (l : Link) : (s.setLink n l).scrubCur = s.scrubCur := rfl
@[simp] theorem State.setLink_scrubMode (s : State) (n : Nat) (l : Link) : (s.setLink n l).scrubMode = s.scrubMode := rfl
@[simp] theorem State.setLink_scrubEnd (s : State) (n : Nat) (l : Link) : (s.setLink n l).scrubEnd = s.scrubEnd := rfl
@[simp] theorem State.setLink_scrubPend (s : State) (n : Nat) (l : Link) : (s.setLink n l).scrubPend = s.scrubPend := rfl
@[simp] theorem State.setLink_rescrub (s : State) (n : Nat) (l : Link) : (s.setLink n l).rescrub = s.rescrub := rfl
@[simp] theorem State.setLink_lcstate (s : State) (n : Nat) (l : Link) : (s.setLink n l).lcstate = s.lcstate := rfl
@[simp] theorem State.setLink_isolate (s : State) (n : Nat) (l : Link) : (s.setLink n l).isolate = s.isolate := rfl
@[simp] theorem State.setLink_isolated (s : State) (n : Nat) (l : Link) : (s.setLink n l).isolated = s.isolated := rfl
@[simp] theorem State.setLink_repaired (s : State) (n : Nat) (l : Link) : (s.setLink n l).repaired = s.repaired := rfl
@[simp] theorem State.setLink_lmsIndex (s : State) (n : Nat) (l : Link) : (s.setLink n l).lmsIndex = s.lmsIndex := rfl
@[simp] theorem State.setLink_keys (s : State) (n : Nat) (l : Link) : (s.setLink n l).keys = s.keys := rfl
@[simp] theorem State.setLink_held (s : State) (n : Nat) (l : Link) : (s.setLink n l).held = s.held := rfl
@[simp] theorem State.setLink_firmware (s : State) (n : Nat) (l : Link) : (s.setLink n l).firmware = s.firmware := rfl
@[simp] theorem State.setLink_boot (s : State) (n : Nat) (l : Link) : (s.setLink n l).boot = s.boot := rfl
@[simp] theorem State.setLink_vblocks (s : State) (n : Nat) (l : Link) : (s.setLink n l).vblocks = s.vblocks := rfl
@[simp] theorem State.setLink_nextRun (s : State) (n : Nat) (l : Link) : (s.setLink n l).nextRun = s.nextRun := rfl
@[simp] theorem State.setLink_ev (s : State) (n : Nat) (l : Link) : (s.setLink n l).ev = s.ev := rfl
@[simp] theorem State.setLink_agenda (s : State) (n : Nat) (l : Link) : (s.setLink n l).agenda = s.agenda := rfl
@[simp] theorem State.setLink_hostOut (s : State) (n : Nat) (l : Link) : (s.setLink n l).hostOut = s.hostOut := rfl
@[simp] theorem State.setLink_fabOut (s : State) (n : Nat) (l : Link) : (s.setLink n l).fabOut = s.fabOut := rfl

/-! ## `setGroup` -/

@[simp] theorem State.setGroup_cores (s : State) (n : Nat) (r : RedCfg) : (s.setGroup n r).cores = s.cores := rfl
@[simp] theorem State.setGroup_caps (s : State) (n : Nat) (r : RedCfg) : (s.setGroup n r).caps = s.caps := rfl
@[simp] theorem State.setGroup_quarters (s : State) (n : Nat) (r : RedCfg) : (s.setGroup n r).quarters = s.quarters := rfl
@[simp] theorem State.setGroup_cycle (s : State) (n : Nat) (r : RedCfg) : (s.setGroup n r).cycle = s.cycle := rfl
@[simp] theorem State.setGroup_cycleLen (s : State) (n : Nat) (r : RedCfg) : (s.setGroup n r).cycleLen = s.cycleLen := rfl
@[simp] theorem State.setGroup_mem (s : State) (n : Nat) (r : RedCfg) : (s.setGroup n r).mem = s.mem := rfl
@[simp] theorem State.setGroup_enc (s : State) (n : Nat) (r : RedCfg) : (s.setGroup n r).enc = s.enc := rfl
@[simp] theorem State.setGroup_cache (s : State) (n : Nat) (r : RedCfg) : (s.setGroup n r).cache = s.cache := rfl
@[simp] theorem State.setGroup_stale (s : State) (n : Nat) (r : RedCfg) : (s.setGroup n r).stale = s.stale := rfl
@[simp] theorem State.setGroup_bad (s : State) (n : Nat) (r : RedCfg) : (s.setGroup n r).bad = s.bad := rfl
@[simp] theorem State.setGroup_moving (s : State) (n : Nat) (r : RedCfg) : (s.setGroup n r).moving = s.moving := rfl
@[simp] theorem State.setGroup_walkroot (s : State) (n : Nat) (r : RedCfg) : (s.setGroup n r).walkroot = s.walkroot := rfl
@[simp] theorem State.setGroup_caskOpen (s : State) (n : Nat) (r : RedCfg) : (s.setGroup n r).caskOpen = s.caskOpen := rfl
@[simp] theorem State.setGroup_caskSealing (s : State) (n : Nat) (r : RedCfg) : (s.setGroup n r).caskSealing = s.caskSealing := rfl
@[simp] theorem State.setGroup_refresh (s : State) (n : Nat) (r : RedCfg) : (s.setGroup n r).refresh = s.refresh := rfl
@[simp] theorem State.setGroup_seqrs (s : State) (n : Nat) (r : RedCfg) : (s.setGroup n r).seqrs = s.seqrs := rfl
@[simp] theorem State.setGroup_net (s : State) (n : Nat) (r : RedCfg) : (s.setGroup n r).net = s.net := rfl
@[simp] theorem State.setGroup_heldMsgs (s : State) (n : Nat) (r : RedCfg) : (s.setGroup n r).heldMsgs = s.heldMsgs := rfl
@[simp] theorem State.setGroup_queues (s : State) (n : Nat) (r : RedCfg) : (s.setGroup n r).queues = s.queues := rfl
@[simp] theorem State.setGroup_ctxs (s : State) (n : Nat) (r : RedCfg) : (s.setGroup n r).ctxs = s.ctxs := rfl
@[simp] theorem State.setGroup_flagAcc (s : State) (n : Nat) (r : RedCfg) : (s.setGroup n r).flagAcc = s.flagAcc := rfl
@[simp] theorem State.setGroup_flagNew (s : State) (n : Nat) (r : RedCfg) : (s.setGroup n r).flagNew = s.flagNew := rfl
@[simp] theorem State.setGroup_tiles (s : State) (n : Nat) (r : RedCfg) : (s.setGroup n r).tiles = s.tiles := rfl
@[simp] theorem State.setGroup_links (s : State) (n : Nat) (r : RedCfg) : (s.setGroup n r).links = s.links := rfl
@[simp] theorem State.setGroup_members (s : State) (n : Nat) (r : RedCfg) : (s.setGroup n r).members = s.members := rfl
@[simp] theorem State.setGroup_replayCache (s : State) (n : Nat) (r : RedCfg) : (s.setGroup n r).replayCache = s.replayCache := rfl
@[simp] theorem State.setGroup_trigstat (s : State) (n : Nat) (r : RedCfg) : (s.setGroup n r).trigstat = s.trigstat := rfl
@[simp] theorem State.setGroup_scrubBusy (s : State) (n : Nat) (r : RedCfg) : (s.setGroup n r).scrubBusy = s.scrubBusy := rfl
@[simp] theorem State.setGroup_scrubErr (s : State) (n : Nat) (r : RedCfg) : (s.setGroup n r).scrubErr = s.scrubErr := rfl
@[simp] theorem State.setGroup_scrubCur (s : State) (n : Nat) (r : RedCfg) : (s.setGroup n r).scrubCur = s.scrubCur := rfl
@[simp] theorem State.setGroup_scrubMode (s : State) (n : Nat) (r : RedCfg) : (s.setGroup n r).scrubMode = s.scrubMode := rfl
@[simp] theorem State.setGroup_scrubEnd (s : State) (n : Nat) (r : RedCfg) : (s.setGroup n r).scrubEnd = s.scrubEnd := rfl
@[simp] theorem State.setGroup_scrubPend (s : State) (n : Nat) (r : RedCfg) : (s.setGroup n r).scrubPend = s.scrubPend := rfl
@[simp] theorem State.setGroup_rescrub (s : State) (n : Nat) (r : RedCfg) : (s.setGroup n r).rescrub = s.rescrub := rfl
@[simp] theorem State.setGroup_lcstate (s : State) (n : Nat) (r : RedCfg) : (s.setGroup n r).lcstate = s.lcstate := rfl
@[simp] theorem State.setGroup_isolate (s : State) (n : Nat) (r : RedCfg) : (s.setGroup n r).isolate = s.isolate := rfl
@[simp] theorem State.setGroup_isolated (s : State) (n : Nat) (r : RedCfg) : (s.setGroup n r).isolated = s.isolated := rfl
@[simp] theorem State.setGroup_repaired (s : State) (n : Nat) (r : RedCfg) : (s.setGroup n r).repaired = s.repaired := rfl
@[simp] theorem State.setGroup_lmsIndex (s : State) (n : Nat) (r : RedCfg) : (s.setGroup n r).lmsIndex = s.lmsIndex := rfl
@[simp] theorem State.setGroup_keys (s : State) (n : Nat) (r : RedCfg) : (s.setGroup n r).keys = s.keys := rfl
@[simp] theorem State.setGroup_held (s : State) (n : Nat) (r : RedCfg) : (s.setGroup n r).held = s.held := rfl
@[simp] theorem State.setGroup_firmware (s : State) (n : Nat) (r : RedCfg) : (s.setGroup n r).firmware = s.firmware := rfl
@[simp] theorem State.setGroup_boot (s : State) (n : Nat) (r : RedCfg) : (s.setGroup n r).boot = s.boot := rfl
@[simp] theorem State.setGroup_vblocks (s : State) (n : Nat) (r : RedCfg) : (s.setGroup n r).vblocks = s.vblocks := rfl
@[simp] theorem State.setGroup_nextRun (s : State) (n : Nat) (r : RedCfg) : (s.setGroup n r).nextRun = s.nextRun := rfl
@[simp] theorem State.setGroup_ev (s : State) (n : Nat) (r : RedCfg) : (s.setGroup n r).ev = s.ev := rfl
@[simp] theorem State.setGroup_agenda (s : State) (n : Nat) (r : RedCfg) : (s.setGroup n r).agenda = s.agenda := rfl
@[simp] theorem State.setGroup_hostOut (s : State) (n : Nat) (r : RedCfg) : (s.setGroup n r).hostOut = s.hostOut := rfl
@[simp] theorem State.setGroup_fabOut (s : State) (n : Nat) (r : RedCfg) : (s.setGroup n r).fabOut = s.fabOut := rfl

/-! ## `setKey` -/

@[simp] theorem State.setKey_cores (s : State) (n : Nat) (k : Option W512) : (s.setKey n k).cores = s.cores := rfl
@[simp] theorem State.setKey_caps (s : State) (n : Nat) (k : Option W512) : (s.setKey n k).caps = s.caps := rfl
@[simp] theorem State.setKey_quarters (s : State) (n : Nat) (k : Option W512) : (s.setKey n k).quarters = s.quarters := rfl
@[simp] theorem State.setKey_cycle (s : State) (n : Nat) (k : Option W512) : (s.setKey n k).cycle = s.cycle := rfl
@[simp] theorem State.setKey_cycleLen (s : State) (n : Nat) (k : Option W512) : (s.setKey n k).cycleLen = s.cycleLen := rfl
@[simp] theorem State.setKey_mem (s : State) (n : Nat) (k : Option W512) : (s.setKey n k).mem = s.mem := rfl
@[simp] theorem State.setKey_enc (s : State) (n : Nat) (k : Option W512) : (s.setKey n k).enc = s.enc := rfl
@[simp] theorem State.setKey_cache (s : State) (n : Nat) (k : Option W512) : (s.setKey n k).cache = s.cache := rfl
@[simp] theorem State.setKey_stale (s : State) (n : Nat) (k : Option W512) : (s.setKey n k).stale = s.stale := rfl
@[simp] theorem State.setKey_bad (s : State) (n : Nat) (k : Option W512) : (s.setKey n k).bad = s.bad := rfl
@[simp] theorem State.setKey_moving (s : State) (n : Nat) (k : Option W512) : (s.setKey n k).moving = s.moving := rfl
@[simp] theorem State.setKey_walkroot (s : State) (n : Nat) (k : Option W512) : (s.setKey n k).walkroot = s.walkroot := rfl
@[simp] theorem State.setKey_caskOpen (s : State) (n : Nat) (k : Option W512) : (s.setKey n k).caskOpen = s.caskOpen := rfl
@[simp] theorem State.setKey_caskSealing (s : State) (n : Nat) (k : Option W512) : (s.setKey n k).caskSealing = s.caskSealing := rfl
@[simp] theorem State.setKey_refresh (s : State) (n : Nat) (k : Option W512) : (s.setKey n k).refresh = s.refresh := rfl
@[simp] theorem State.setKey_seqrs (s : State) (n : Nat) (k : Option W512) : (s.setKey n k).seqrs = s.seqrs := rfl
@[simp] theorem State.setKey_net (s : State) (n : Nat) (k : Option W512) : (s.setKey n k).net = s.net := rfl
@[simp] theorem State.setKey_heldMsgs (s : State) (n : Nat) (k : Option W512) : (s.setKey n k).heldMsgs = s.heldMsgs := rfl
@[simp] theorem State.setKey_queues (s : State) (n : Nat) (k : Option W512) : (s.setKey n k).queues = s.queues := rfl
@[simp] theorem State.setKey_ctxs (s : State) (n : Nat) (k : Option W512) : (s.setKey n k).ctxs = s.ctxs := rfl
@[simp] theorem State.setKey_flagAcc (s : State) (n : Nat) (k : Option W512) : (s.setKey n k).flagAcc = s.flagAcc := rfl
@[simp] theorem State.setKey_flagNew (s : State) (n : Nat) (k : Option W512) : (s.setKey n k).flagNew = s.flagNew := rfl
@[simp] theorem State.setKey_tiles (s : State) (n : Nat) (k : Option W512) : (s.setKey n k).tiles = s.tiles := rfl
@[simp] theorem State.setKey_links (s : State) (n : Nat) (k : Option W512) : (s.setKey n k).links = s.links := rfl
@[simp] theorem State.setKey_redcfg (s : State) (n : Nat) (k : Option W512) : (s.setKey n k).redcfg = s.redcfg := rfl
@[simp] theorem State.setKey_members (s : State) (n : Nat) (k : Option W512) : (s.setKey n k).members = s.members := rfl
@[simp] theorem State.setKey_replayCache (s : State) (n : Nat) (k : Option W512) : (s.setKey n k).replayCache = s.replayCache := rfl
@[simp] theorem State.setKey_trigstat (s : State) (n : Nat) (k : Option W512) : (s.setKey n k).trigstat = s.trigstat := rfl
@[simp] theorem State.setKey_scrubBusy (s : State) (n : Nat) (k : Option W512) : (s.setKey n k).scrubBusy = s.scrubBusy := rfl
@[simp] theorem State.setKey_scrubErr (s : State) (n : Nat) (k : Option W512) : (s.setKey n k).scrubErr = s.scrubErr := rfl
@[simp] theorem State.setKey_scrubCur (s : State) (n : Nat) (k : Option W512) : (s.setKey n k).scrubCur = s.scrubCur := rfl
@[simp] theorem State.setKey_scrubMode (s : State) (n : Nat) (k : Option W512) : (s.setKey n k).scrubMode = s.scrubMode := rfl
@[simp] theorem State.setKey_scrubEnd (s : State) (n : Nat) (k : Option W512) : (s.setKey n k).scrubEnd = s.scrubEnd := rfl
@[simp] theorem State.setKey_scrubPend (s : State) (n : Nat) (k : Option W512) : (s.setKey n k).scrubPend = s.scrubPend := rfl
@[simp] theorem State.setKey_rescrub (s : State) (n : Nat) (k : Option W512) : (s.setKey n k).rescrub = s.rescrub := rfl
@[simp] theorem State.setKey_lcstate (s : State) (n : Nat) (k : Option W512) : (s.setKey n k).lcstate = s.lcstate := rfl
@[simp] theorem State.setKey_isolate (s : State) (n : Nat) (k : Option W512) : (s.setKey n k).isolate = s.isolate := rfl
@[simp] theorem State.setKey_isolated (s : State) (n : Nat) (k : Option W512) : (s.setKey n k).isolated = s.isolated := rfl
@[simp] theorem State.setKey_repaired (s : State) (n : Nat) (k : Option W512) : (s.setKey n k).repaired = s.repaired := rfl
@[simp] theorem State.setKey_lmsIndex (s : State) (n : Nat) (k : Option W512) : (s.setKey n k).lmsIndex = s.lmsIndex := rfl
@[simp] theorem State.setKey_held (s : State) (n : Nat) (k : Option W512) : (s.setKey n k).held = s.held := rfl
@[simp] theorem State.setKey_firmware (s : State) (n : Nat) (k : Option W512) : (s.setKey n k).firmware = s.firmware := rfl
@[simp] theorem State.setKey_boot (s : State) (n : Nat) (k : Option W512) : (s.setKey n k).boot = s.boot := rfl
@[simp] theorem State.setKey_vblocks (s : State) (n : Nat) (k : Option W512) : (s.setKey n k).vblocks = s.vblocks := rfl
@[simp] theorem State.setKey_nextRun (s : State) (n : Nat) (k : Option W512) : (s.setKey n k).nextRun = s.nextRun := rfl
@[simp] theorem State.setKey_ev (s : State) (n : Nat) (k : Option W512) : (s.setKey n k).ev = s.ev := rfl
@[simp] theorem State.setKey_agenda (s : State) (n : Nat) (k : Option W512) : (s.setKey n k).agenda = s.agenda := rfl
@[simp] theorem State.setKey_hostOut (s : State) (n : Nat) (k : Option W512) : (s.setKey n k).hostOut = s.hostOut := rfl
@[simp] theorem State.setKey_fabOut (s : State) (n : Nat) (k : Option W512) : (s.setKey n k).fabOut = s.fabOut := rfl

/-! ## `dropPacket` -/

@[simp] theorem State.dropPacket_cores (s : State) (k : Nat) : (s.dropPacket k).cores = s.cores := rfl
@[simp] theorem State.dropPacket_caps (s : State) (k : Nat) : (s.dropPacket k).caps = s.caps := rfl
@[simp] theorem State.dropPacket_quarters (s : State) (k : Nat) : (s.dropPacket k).quarters = s.quarters := rfl
@[simp] theorem State.dropPacket_cycle (s : State) (k : Nat) : (s.dropPacket k).cycle = s.cycle := rfl
@[simp] theorem State.dropPacket_cycleLen (s : State) (k : Nat) : (s.dropPacket k).cycleLen = s.cycleLen := rfl
@[simp] theorem State.dropPacket_mem (s : State) (k : Nat) : (s.dropPacket k).mem = s.mem := rfl
@[simp] theorem State.dropPacket_enc (s : State) (k : Nat) : (s.dropPacket k).enc = s.enc := rfl
@[simp] theorem State.dropPacket_cache (s : State) (k : Nat) : (s.dropPacket k).cache = s.cache := rfl
@[simp] theorem State.dropPacket_stale (s : State) (k : Nat) : (s.dropPacket k).stale = s.stale := rfl
@[simp] theorem State.dropPacket_bad (s : State) (k : Nat) : (s.dropPacket k).bad = s.bad := rfl
@[simp] theorem State.dropPacket_moving (s : State) (k : Nat) : (s.dropPacket k).moving = s.moving := rfl
@[simp] theorem State.dropPacket_walkroot (s : State) (k : Nat) : (s.dropPacket k).walkroot = s.walkroot := rfl
@[simp] theorem State.dropPacket_caskOpen (s : State) (k : Nat) : (s.dropPacket k).caskOpen = s.caskOpen := rfl
@[simp] theorem State.dropPacket_caskSealing (s : State) (k : Nat) : (s.dropPacket k).caskSealing = s.caskSealing := rfl
@[simp] theorem State.dropPacket_refresh (s : State) (k : Nat) : (s.dropPacket k).refresh = s.refresh := rfl
@[simp] theorem State.dropPacket_seqrs (s : State) (k : Nat) : (s.dropPacket k).seqrs = s.seqrs := rfl
@[simp] theorem State.dropPacket_heldMsgs (s : State) (k : Nat) : (s.dropPacket k).heldMsgs = s.heldMsgs := rfl
@[simp] theorem State.dropPacket_queues (s : State) (k : Nat) : (s.dropPacket k).queues = s.queues := rfl
@[simp] theorem State.dropPacket_ctxs (s : State) (k : Nat) : (s.dropPacket k).ctxs = s.ctxs := rfl
@[simp] theorem State.dropPacket_flagAcc (s : State) (k : Nat) : (s.dropPacket k).flagAcc = s.flagAcc := rfl
@[simp] theorem State.dropPacket_flagNew (s : State) (k : Nat) : (s.dropPacket k).flagNew = s.flagNew := rfl
@[simp] theorem State.dropPacket_tiles (s : State) (k : Nat) : (s.dropPacket k).tiles = s.tiles := rfl
@[simp] theorem State.dropPacket_links (s : State) (k : Nat) : (s.dropPacket k).links = s.links := rfl
@[simp] theorem State.dropPacket_redcfg (s : State) (k : Nat) : (s.dropPacket k).redcfg = s.redcfg := rfl
@[simp] theorem State.dropPacket_members (s : State) (k : Nat) : (s.dropPacket k).members = s.members := rfl
@[simp] theorem State.dropPacket_replayCache (s : State) (k : Nat) : (s.dropPacket k).replayCache = s.replayCache := rfl
@[simp] theorem State.dropPacket_trigstat (s : State) (k : Nat) : (s.dropPacket k).trigstat = s.trigstat := rfl
@[simp] theorem State.dropPacket_scrubBusy (s : State) (k : Nat) : (s.dropPacket k).scrubBusy = s.scrubBusy := rfl
@[simp] theorem State.dropPacket_scrubErr (s : State) (k : Nat) : (s.dropPacket k).scrubErr = s.scrubErr := rfl
@[simp] theorem State.dropPacket_scrubCur (s : State) (k : Nat) : (s.dropPacket k).scrubCur = s.scrubCur := rfl
@[simp] theorem State.dropPacket_scrubMode (s : State) (k : Nat) : (s.dropPacket k).scrubMode = s.scrubMode := rfl
@[simp] theorem State.dropPacket_scrubEnd (s : State) (k : Nat) : (s.dropPacket k).scrubEnd = s.scrubEnd := rfl
@[simp] theorem State.dropPacket_scrubPend (s : State) (k : Nat) : (s.dropPacket k).scrubPend = s.scrubPend := rfl
@[simp] theorem State.dropPacket_rescrub (s : State) (k : Nat) : (s.dropPacket k).rescrub = s.rescrub := rfl
@[simp] theorem State.dropPacket_lcstate (s : State) (k : Nat) : (s.dropPacket k).lcstate = s.lcstate := rfl
@[simp] theorem State.dropPacket_isolate (s : State) (k : Nat) : (s.dropPacket k).isolate = s.isolate := rfl
@[simp] theorem State.dropPacket_isolated (s : State) (k : Nat) : (s.dropPacket k).isolated = s.isolated := rfl
@[simp] theorem State.dropPacket_repaired (s : State) (k : Nat) : (s.dropPacket k).repaired = s.repaired := rfl
@[simp] theorem State.dropPacket_lmsIndex (s : State) (k : Nat) : (s.dropPacket k).lmsIndex = s.lmsIndex := rfl
@[simp] theorem State.dropPacket_keys (s : State) (k : Nat) : (s.dropPacket k).keys = s.keys := rfl
@[simp] theorem State.dropPacket_held (s : State) (k : Nat) : (s.dropPacket k).held = s.held := rfl
@[simp] theorem State.dropPacket_firmware (s : State) (k : Nat) : (s.dropPacket k).firmware = s.firmware := rfl
@[simp] theorem State.dropPacket_boot (s : State) (k : Nat) : (s.dropPacket k).boot = s.boot := rfl
@[simp] theorem State.dropPacket_vblocks (s : State) (k : Nat) : (s.dropPacket k).vblocks = s.vblocks := rfl
@[simp] theorem State.dropPacket_nextRun (s : State) (k : Nat) : (s.dropPacket k).nextRun = s.nextRun := rfl
@[simp] theorem State.dropPacket_ev (s : State) (k : Nat) : (s.dropPacket k).ev = s.ev := rfl
@[simp] theorem State.dropPacket_agenda (s : State) (k : Nat) : (s.dropPacket k).agenda = s.agenda := rfl
@[simp] theorem State.dropPacket_hostOut (s : State) (k : Nat) : (s.dropPacket k).hostOut = s.hostOut := rfl
@[simp] theorem State.dropPacket_fabOut (s : State) (k : Nat) : (s.dropPacket k).fabOut = s.fabOut := rfl

/-! ## Cores -/

@[simp] theorem State.coreAt_setCore (s : State) (n : Nat) (c : Core) : (s.setCore n c).coreAt n = c := by
  simp [State.coreAt, State.setCore]

theorem State.coreAt_setCore_ne (s : State) {n m : Nat} (c : Core) (h : m ≠ n) : (s.setCore n c).coreAt m = s.coreAt m := by
  simp [State.coreAt, State.setCore, FMap.getD_put_ne _ _ _ h]

@[simp] theorem State.cur_setCur (s : State) (c : Core) : (s.setCur c).cur = c := by
  simp [State.cur, State.setCur]

@[simp] theorem State.cur_modCur (s : State) (f : Core → Core) : (s.modCur f).cur = f s.cur := by
  simp [State.modCur]

@[simp] theorem State.coreAt_modCore (s : State) (n : Nat) (f : Core → Core) : (s.modCore n f).coreAt n = f (s.coreAt n) := by
  simp [State.modCore]

theorem State.coreAt_modCore_ne (s : State) {n m : Nat} (f : Core → Core) (h : m ≠ n) :
    (s.modCore n f).coreAt m = s.coreAt m := by
  simp [State.modCore, State.coreAt_setCore_ne _ _ h]

theorem State.coreAt_modCur_ne (s : State) {m : Nat} (f : Core → Core) (h : m ≠ s.ev.core) :
    (s.modCur f).coreAt m = s.coreAt m := by
  simp [State.modCur, State.setCur, State.coreAt_setCore_ne _ _ h]

theorem FMap.put_put {V : Type} (m : FMap V) (k : Nat) (x y : V) : FMap.put (FMap.put m k x) k y = FMap.put m k y := by
  have he : ∀ m : FMap V, FMap.erase (FMap.insert (FMap.erase m k) k x) k = FMap.erase m k := by
    intro m
    induction m with
    | nil => simp [FMap.erase, FMap.insert]
    | cons e m ih =>
      obtain ⟨a, v⟩ := e
      by_cases ha : a = k
      · simpa [FMap.erase, ha] using ih
      · by_cases hlt : k < a
        · have hee : ∀ m : FMap V, FMap.erase (FMap.erase m k) k = FMap.erase m k := by
            intro m
            induction m with
            | nil => rfl
            | cons e m ih =>
              obtain ⟨b, w⟩ := e
              by_cases hb : b = k <;> simp [FMap.erase, hb, ih]
          simp [FMap.erase, FMap.insert, ha, hlt, hee]
        · simp [FMap.erase, FMap.insert, ha, hlt, ih]
  simp [FMap.put, he]

@[simp] theorem State.setCore_setCore (s : State) (n : Nat) (c d : Core) : (s.setCore n c).setCore n d = s.setCore n d := by
  simp [State.setCore, FMap.put_put]

@[simp] theorem State.setCur_setCur (s : State) (c d : Core) : (s.setCur c).setCur d = s.setCur d := by
  simp [State.setCur]

@[simp] theorem State.modCur_setCur (s : State) (c : Core) (f : Core → Core) : (s.setCur c).modCur f = s.setCur (f c) := by
  simp [State.modCur]

/-- Two changes of the current core are one. -/
@[simp] theorem State.modCur_modCur (s : State) (f g : Core → Core) : (s.modCur f).modCur g = s.modCur (fun c => g (f c)) := by
  simp [State.modCur]

theorem State.modCur_eq (s : State) (f : Core → Core) : s.modCur f = s.setCur (f s.cur) := rfl

end Sys2Proof.Machine
end

