-- ==== Sys2Proof/Laws/Run.lean ====
section
/-!
SUPPORT. What a word can do: `runWord` takes its trap, waits, or does what the word's own effect says; and what retiring a
slot changes.
-/
namespace Sys2Proof.Machine

/-! ## Retiring a slot -/

theorem State.retire_eq (s : State) : s.retire = s.setCur s.cur.retire := rfl
@[simp] theorem Core.retire_rs (c : Core) (r : BitVec 5) : c.retire.rs r = c.rs r := rfl
@[simp] theorem Core.retire_rv (c : Core) (r : BitVec 5) : c.retire.rv r = c.rv r := rfl
@[simp] theorem Core.retire_rp (c : Core) (r : BitVec 3) : c.retire.rp r = c.rp r := rfl
@[simp] theorem Core.retire_rh (c : Core) (r : BitVec 4) : c.retire.rh r = c.rh r := rfl
@[simp] theorem Core.retire_uncleared (c : Core) : c.retire.uncleared = c.uncleared := rfl
@[simp] theorem Core.retire_pc (c : Core) : c.retire.t.pc = c.iss.next := rfl
@[simp] theorem Core.retire_nom (c : Core) : c.retire.t.nom = c.iss.nom + 1 + c.iss.stall := rfl
@[simp] theorem Core.retire_slot (c : Core) : c.retire.slot = .done := rfl
@[simp] theorem Core.retire_instret (c : Core) : c.retire.instret = c.instret + 1 := rfl

@[simp] theorem State.retire_cur (s : State) : s.retire.cur = s.cur.retire := by simp [State.retire_eq]
@[simp] theorem State.retire_ev (s : State) : s.retire.ev = s.ev := rfl
@[simp] theorem State.retire_rs (s : State) (r : BitVec 5) : s.retire.rs r = s.rs r := by simp [State.rs]
@[simp] theorem State.retire_rp (s : State) (r : BitVec 3) : s.retire.rp r = s.rp r := by simp [State.rp]
@[simp] theorem State.retire_modCur (s : State) (f : Core → Core) : s.retire.modCur f = s.setCur (f s.cur.retire) := by
  simp [State.retire_eq]
@[simp] theorem State.rs_setCur (s : State) (c : Core) (r : BitVec 5) : (s.setCur c).rs r = c.rs r := by simp [State.rs]
@[simp] theorem State.rp_setCur (s : State) (c : Core) (r : BitVec 3) : (s.setCur c).rp r = c.rp r := by simp [State.rp]

/-! ## runWord -/

/-- A wait that has not trained the predictor takes nothing back. -/
theorem State.untrained_same {s t : State} (h : t.cur.pred = s.cur.pred) : t.untrained s = t := by
  simp [State.untrained, h]

/-- Everything a word can do. -/
theorem runWord_cases (i : Instr) (s : State) (body : State → Res) :
    (∃ code tval, runWord i s body = .next (s.trapNow code tval)) ∨ runWord i s body = .next s.hold
      ∨ (Ready i s ∧ ∃ t, body s.retire = .ok t ∧ runWord i s body = .next t)
      ∨ (Ready i s ∧ ∃ t, body s.retire = .wait t ∧ runWord i s body = .next (t.hold.untrained s)) := by
  unfold runWord
  split
  · exact .inl ⟨_, _, rfl⟩
  · rename_i h1
    split
    · exact .inr (.inl rfl)
    · rename_i h2
      split
      · exact .inl ⟨_, _, rfl⟩
      · rename_i h3
        have hr : Ready i s := ⟨h1, by simpa using h2, h3⟩
        split <;> rename_i h4
        · exact .inr (.inr (.inl ⟨hr, _, h4, rfl⟩))
        · exact .inl ⟨_, _, rfl⟩
        · exact .inr (.inr (.inr ⟨hr, _, h4, rfl⟩))

/-- A word always gives a next state. -/
theorem runWord_next (i : Instr) (s : State) (body : State → Res) : ∃ t, runWord i s body = .next t := by
  rcases runWord_cases i s body with ⟨_, _, h⟩ | h | ⟨_, _, _, h⟩ | ⟨_, _, _, h⟩ <;> exact ⟨_, h⟩

/-- A word that may take effect does what its own effect says. -/
theorem runWord_ready {i : Instr} {s : State} (h : Ready i s) (body : State → Res) :
    runWord i s body = (match body s.retire with
      | .ok t => .next t
      | .trap code tval => .next (s.trapNow code tval)
      | .wait t => .next (t.hold.untrained s)) := by
  obtain ⟨h1, h2, h3⟩ := h
  unfold runWord
  rw [h1]
  (simp only [h2, h3, Bool.false_eq_true, ↓reduceIte]) <;> (cases body s.retire <;> rfl)

theorem runWord_ok {i : Instr} {s t : State} {body : State → Res} (h : Ready i s) (hb : body s.retire = .ok t) :
    runWord i s body = .next t := by
  rw [runWord_ready h, hb]

theorem runWord_trap {i : Instr} {s : State} {body : State → Res} {code : BitVec 8} {tval : W64} (h : Ready i s)
    (hb : body s.retire = .trap code tval) : runWord i s body = .next (s.trapNow code tval) := by
  rw [runWord_ready h, hb]

/-- A word that the issue checks refuse traps with what they found (03 R76). -/
theorem runWord_refused {i : Instr} {s : State} {code : BitVec 8} {tval : W64} (body : State → Res)
    (h : s.cur.issueCheck i = some (code, tval)) : runWord i s body = .next (s.trapNow code tval) := by
  simp [runWord, h]

/-- A word whose sources have not arrived waits (03 R57). -/
theorem runWord_awaits {i : Instr} {s : State} (body : State → Res) (h : s.cur.issueCheck i = none)
    (hw : s.cur.awaits (sourcesOf i) = true) : runWord i s body = .next s.hold := by
  simp [runWord, h, hw]

/-! ## Registers (03 R59, R60) -/

theorem Thread.land_pend (t : Thread) (e : Pending) : (t.land e).pend = t.pend := by
  unfold Thread.land Thread.setFile
  split <;> split <;> rfl

theorem Thread.foldl_land_pend (l : List Pending) (t : Thread) : (l.foldl Thread.land t).pend = t.pend := by
  induction l generalizing t with
  | nil => rfl
  | cons e l ih => simp [ih, Thread.land_pend]

/-- After `settle`, the results on their way are those not visible and not overtaken. -/
@[simp] theorem Thread.settle_pend (t : Thread) (now : Nat) :
    (t.settle now).pend = t.pend.filter (fun e => !e.seen now && !e.overtaken t.pend now) := by
  simp [Thread.settle, Thread.foldl_land_pend]

/-- Writing a register's own file leaves every other register. -/
theorem Thread.file_setFile_ne (t : Thread) (f g : RFile) (r q : Nat) (x : W512) (h : (f, r) ≠ (g, q)) :
    (t.setFile g q x).file f r = t.file f r := by
  unfold Thread.setFile Thread.file
  cases f <;> cases g <;> simp only <;> (try split) <;> (try split) <;> (try rfl)
  all_goals
    have hrq : q ≠ r := fun e => h (by simp [e])
    simp [Vector.getElem_set_ne _ _ hrq]

theorem Thread.file_land_ne (t : Thread) (e : Pending) (f : RFile) (r : Nat) (h : e.is f r = false) :
    (t.land e).file f r = t.file f r := by
  apply Thread.file_setFile_ne
  rintro ⟨⟩
  simp [Pending.is] at h

/-- A register's own value after a list of results reaches the registers. -/
theorem Thread.file_foldl_ne (l : List Pending) (t : Thread) (f : RFile) (r : Nat) (h : ∀ e ∈ l, e.is f r = false) :
    (l.foldl Thread.land t).file f r = t.file f r := by
  induction l generalizing t with
  | nil => rfl
  | cons e l ih =>
    rw [List.foldl_cons, ih _ (fun x hx => h x (List.mem_cons_of_mem _ hx)), Thread.file_land_ne _ _ _ _ (h e (by simp))]

/-- `add` keeps every register's own value and the results on their way to other registers (03 R60). -/
theorem Thread.add_eq (t : Thread) (e : Pending) (h : ¬ (e.reg = 0 ∧ e.file ≠ .v)) :
    t.add e = { t.settle e.issued with
      pend := (t.settle e.issued).pend.filter (fun o => !o.is e.file e.reg || o.survives e) ++ [e] } := by
  have hc : (decide (e.reg = 0) && decide (e.file ≠ .v)) = false := by
    by_cases h0 : e.reg = 0
    · have : e.file = .v := Classical.byContradiction (fun hf => h ⟨h0, hf⟩)
      simp [this]
    · simp [h0]
  unfold Thread.add
  rw [hc]
  rfl

/-- A result for s0 or p0 is discarded (01 R15). -/
theorem Thread.add_zero (t : Thread) (e : Pending) (h : e.reg = 0) (hf : e.file ≠ .v) : t.add e = t := by
  simp [Thread.add, h, hf]

/-- Results that were visible are gone after `settle`. -/
theorem Thread.settle_unseen (t : Thread) (now : Nat) (e : Pending) (h : e ∈ (t.settle now).pend) : e.seen now = false := by
  simp at h
  exact h.2.1

theorem Pending.onto_whole (e : Pending) (x : W512) (h : e.mask = none) : e.onto x = e.val := by
  simp [Pending.onto, h]

/-- A result is read from its time on (03 R59), whatever came before it (03 R60). -/
theorem Thread.read_add (t : Thread) (e : Pending) (v now : Nat) (h : ¬ (e.reg = 0 ∧ e.file ≠ .v)) (hm : e.mask = none)
    (hv : e.visible = some v) (hi : e.issued < now) (hn : v ≤ now) : (t.add e).read e.file e.reg now = e.val := by
  rw [Thread.add_eq t e h]
  have hs : (e.is e.file e.reg && decide (e.issued < now) && e.seen now) = true := by
    simp [Pending.is, hi, Pending.seen, hv, hn]
  simp only [Thread.read, List.filter_append, List.filter_cons, hs, List.filter_nil, if_true, List.foldl_append,
    List.foldl_cons, List.foldl_nil]
  exact Pending.onto_whole e _ hm

/-- Before its time the register gives what it gave (03 R59). -/
theorem Thread.read_add_before (t : Thread) (e : Pending) (v now : Nat) (h : ¬ (e.reg = 0 ∧ e.file ≠ .v))
    (hv : e.visible = some v) (hn : now < v) :
    (t.add e).read e.file e.reg now = (t.settle e.issued).read e.file e.reg now := by
  rw [Thread.add_eq t e h]
  have hs : (e.is e.file e.reg && decide (e.issued < now) && e.seen now) = false := by
    simp [Pending.seen, hv]
    omega
  simp only [Thread.read, List.filter_append, List.filter_cons, hs, List.filter_nil, List.filter_filter]
  have : ∀ o : Pending, (o.is e.file e.reg && decide (o.issued < now) && o.seen now
      && (!o.is e.file e.reg || o.survives e)) = (o.is e.file e.reg && decide (o.issued < now) && o.seen now) := by
    intro o
    cases hos : o.seen now with
    | false => simp
    | true =>
      have : o.survives e = true := by
        unfold Pending.seen at hos
        unfold Pending.survives
        cases ho : o.visible with
        | none => simp [ho] at hos
        | some a =>
          simp only [ho, decide_eq_true_eq] at hos
          simp only [hv, decide_eq_true_eq]
          omega
      simp [this]
  simp only [Bool.false_eq_true, if_false, List.append_nil, this]
  rfl

/-- Another register keeps its value and what is on its way to it (03 R60). -/
theorem Thread.regView_add_ne (t : Thread) (e : Pending) (f : RFile) (r : Nat) (h : e.is f r = false) :
    (t.add e).regView e.issued f r = t.regView e.issued f r := by
  by_cases hz : e.reg = 0 ∧ e.file ≠ .v
  · rw [Thread.add_zero t e hz.1 hz.2]
  · rw [Thread.add_eq t e hz]
    have hne : ∀ o : Pending, o.is f r = true → o.is e.file e.reg = false := by
      intro o ho
      simp only [Pending.is, Bool.and_eq_true, decide_eq_true_eq, Bool.and_eq_false_iff, decide_eq_false_iff_not] at ho h ⊢
      obtain ⟨rfl, rfl⟩ := ho
      rcases h with h | h
      · exact .inl (fun he => h he.symm)
      · exact .inr (fun he => h he.symm)
    unfold Thread.regView
    congr 1
    · conv => lhs; unfold Thread.settle
      rw [Thread.file_foldl_ne]
      · rfl
      · intro x hx
        simp only [List.filter_append, List.mem_append, List.mem_filter, List.mem_singleton] at hx
        rcases hx with hx | hx
        · have := Thread.settle_unseen t e.issued x hx.1.1
          simp [this] at hx
        · rw [hx.1]
          exact h
    · simp only [Thread.settle_pend, List.filter_append, List.filter_filter]
      have h1 : (List.filter (fun a => a.is f r && (!a.seen e.issued && !a.overtaken (List.filter (fun o =>
          (!o.is e.file e.reg || o.survives e) && (!o.seen e.issued && !o.overtaken t.pend e.issued)) t.pend ++ [e])
            e.issued)) [e]) = [] := by simp [h]
      rw [h1, List.append_nil]
      apply List.filter_congr
      intro o _
      cases ho : o.is f r with
      | false => simp
      | true =>
        have h2 := hne o ho
        cases hs : o.seen e.issued with
        | true => simp
        | false =>
          cases hov : o.overtaken t.pend e.issued with
          | true => simp
          | false =>
            have : o.overtaken (List.filter (fun o =>
                (!o.is e.file e.reg || o.survives e) && (!o.seen e.issued && !o.overtaken t.pend e.issued)) t.pend ++ [e])
                e.issued = false := by
              unfold Pending.overtaken at hov ⊢
              rw [List.any_eq_false] at hov ⊢
              intro x hx
              rcases List.mem_append.1 hx with hx | hx
              · exact hov x (List.mem_filter.1 hx).1
              · simp only [List.mem_singleton] at hx
                subst hx
                have : x.is o.file o.reg = false := by
                  cases hc : x.is o.file o.reg with
                  | false => rfl
                  | true =>
                    simp only [Pending.is, Bool.and_eq_true, decide_eq_true_eq] at hc ho
                    simp [Pending.is, ← ho.1, ← ho.2, hc.1, hc.2] at h
                simp [this]
            simp [this, h2]

end Sys2Proof.Machine
end

