-- ==== Sys2Proof/Laws/Result.lean ====
section
/-!
SUPPORT. What a word with a fixed-latency result does to its core: the result comes when the spec says, no other register
changes, and nothing else of the state does.
-/
namespace Sys2Proof.Machine

/-! ## The slot's own fields and the registers do not meet -/

/-- A thread with another PC and nominal time. -/
def Thread.at (t : Thread) (pc : W64) (nom : Nat) : Thread := { t with pc := pc, nom := nom }

theorem Thread.land_at (t : Thread) (pc : W64) (nom : Nat) (e : Pending) : (t.at pc nom).land e = (t.land e).at pc nom := by
  unfold Thread.land Thread.setFile
  cases hf : e.file <;> (simp only; split <;> rfl)

theorem Thread.foldl_land_at (l : List Pending) (t : Thread) (pc : W64) (nom : Nat) :
    l.foldl Thread.land (t.at pc nom) = (l.foldl Thread.land t).at pc nom := by
  induction l generalizing t with
  | nil => rfl
  | cons e l ih => rw [List.foldl_cons, Thread.land_at, ih, List.foldl_cons]

theorem Thread.settle_at (t : Thread) (pc : W64) (nom now : Nat) : (t.at pc nom).settle now = (t.settle now).at pc nom := by
  exact Thread.foldl_land_at (t.pend.filter (fun e => e.seen now))
    { t with pend := t.pend.filter (fun e => !e.seen now && !e.overtaken t.pend now) } pc nom

theorem Thread.read_at (t : Thread) (pc : W64) (nom : Nat) (f : RFile) (r now : Nat) :
    (t.at pc nom).read f r now = t.read f r now := by
  cases f <;> rfl

theorem Thread.regView_at (t : Thread) (pc : W64) (nom now : Nat) (f : RFile) (r : Nat) :
    (t.at pc nom).regView now f r = t.regView now f r := by
  unfold Thread.regView
  rw [Thread.settle_at]
  cases f <;> rfl

theorem Thread.add_at (t : Thread) (pc : W64) (nom : Nat) (e : Pending) : (t.at pc nom).add e = (t.add e).at pc nom := by
  unfold Thread.add
  split
  · rfl
  · rw [Thread.settle_at]
    rfl

theorem Core.retire_t (c : Core) : c.retire.t = c.t.at c.iss.next (c.iss.nom + 1 + c.iss.stall) := rfl

/-! ## The fields that `add` leaves -/

/-- What results on their way never touch. -/
theorem Thread.land_rest (t : Thread) (e : Pending) :
    t.land e = { t with s := (t.land e).s, v := (t.land e).v, p := (t.land e).p } := by
  unfold Thread.land Thread.setFile
  cases hf : e.file <;> (simp only; split <;> rfl)

theorem Thread.foldl_land_rest (l : List Pending) (t : Thread) :
    l.foldl Thread.land t
      = { t with s := (l.foldl Thread.land t).s, v := (l.foldl Thread.land t).v, p := (l.foldl Thread.land t).p } := by
  induction l generalizing t with
  | nil => rfl
  | cons e l ih =>
    rw [List.foldl_cons]
    have h := ih (t.land e)
    have h2 := Thread.land_rest t e
    generalize l.foldl Thread.land (t.land e) = u at h ⊢
    rw [h2] at h
    exact h

theorem Thread.add_rest (t : Thread) (e : Pending) :
    t.add e = { t with s := (t.add e).s, v := (t.add e).v, p := (t.add e).p, pend := (t.add e).pend } := by
  unfold Thread.add
  split
  · rfl
  · unfold Thread.settle
    have h := Thread.foldl_land_rest (t.pend.filter (fun x => x.seen e.issued))
      { t with pend := t.pend.filter (fun x => !x.seen e.issued && !x.overtaken t.pend e.issued) }
    generalize (t.pend.filter (fun x => x.seen e.issued)).foldl Thread.land
      { t with pend := t.pend.filter (fun x => !x.seen e.issued && !x.overtaken t.pend e.issued) } = u at h ⊢
    rw [h]

/-! ## A word with one fixed-latency result -/

/-- The result of a word that retires. -/
def fixedResult (c : Core) (f : RFile) (r : Nat) (x : W512) (lat : Nat) : Pending :=
  { file := f, reg := r, val := x, mask := none, issued := c.iss.nom, visible := some (c.iss.nom + lat), tag := 0 }

theorem Core.out_t (c : Core) (f : RFile) (r : Nat) (x : W512) (lat : Nat) :
    (c.retire.out f r x lat).t = (c.t.add (fixedResult c f r x lat)).at c.iss.next (c.iss.nom + 1 + c.iss.stall) := by
  show (c.retire.t).add (fixedResult c f r x lat) = _
  rw [Core.retire_t, Thread.add_at]

theorem out_resultIn (s : State) (f : RFile) (r : Nat) (x : W512) (lat : Nat) (h : ¬ (r = 0 ∧ f ≠ .v)) :
    ResultIn s (s.setCur (s.cur.retire.out f r x lat)) f r x lat := by
  refine ⟨fun now h1 h2 => ?_, fun now h1 h2 => ?_⟩
  · rw [State.cur_setCur, Core.out_t, Thread.read_at]
    exact Thread.read_add _ (fixedResult s.cur f r x lat) _ _ h rfl rfl h1 h2
  · rw [State.cur_setCur, Core.out_t, Thread.read_at]
    exact Thread.read_add_before _ (fixedResult s.cur f r x lat) _ _ h rfl h2

theorem out_onlyRegs (s : State) (f : RFile) (r : Nat) (x : W512) (lat : Nat) :
    OnlyRegs s (s.setCur (s.cur.retire.out f r x lat)) [(f, r)] := by
  intro g q h
  rw [State.cur_setCur, Core.out_t, Thread.regView_at]
  apply Thread.regView_add_ne _ (fixedResult s.cur f r x lat)
  cases hc : (fixedResult s.cur f r x lat).is g q with
  | false => rfl
  | true =>
    have hc := Bool.and_eq_true_iff.1 hc
    have h1 : f = g := of_decide_eq_true hc.1
    have h2 : r = q := of_decide_eq_true hc.2
    simp [h1, h2] at h

/-- A result for s0 or p0 changes no register (01 R15). -/
theorem out_zero_onlyRegs (s : State) (f : RFile) (r : Nat) (x : W512) (lat : Nat) (h : r = 0) (hf : f ≠ .v) :
    OnlyRegs s (s.setCur (s.cur.retire.out f r x lat)) [] := by
  intro g q _
  rw [State.cur_setCur, Core.out_t, Thread.regView_at, Thread.add_zero _ (fixedResult s.cur f r x lat) h hf]

theorem out_onlyThread (s : State) (f : RFile) (r : Nat) (x : W512) (lat : Nat) :
    OnlyThread s (s.setCur (s.cur.retire.out f r x lat)) := by
  refine ⟨(s.cur.retire.out f r x lat).t, rfl, ?_⟩
  have h := Thread.add_rest s.cur.retire.t (fixedResult s.cur f r x lat)
  show s.cur.retire.t.add (fixedResult s.cur f r x lat) = _
  exact (show ∀ u : Thread, u = { s.cur.retire.t with s := u.s, v := u.v, p := u.p, pend := u.pend } →
      u = { s.cur.t with s := u.s, v := u.v, p := u.p, pend := u.pend, flags := u.flags, pendFlags := u.pendFlags,
                         pc := s.cur.iss.next, nom := s.cur.iss.nom + 1 + s.cur.iss.stall } from
    fun u h => by rw [h]; rfl) _ h

theorem out_sameFlags (s : State) (f : RFile) (r : Nat) (x : W512) (lat : Nat) :
    SameFlags s (s.setCur (s.cur.retire.out f r x lat)) := by
  have h := Thread.add_rest s.cur.retire.t (fixedResult s.cur f r x lat)
  have hc : (s.setCur (s.cur.retire.out f r x lat)).cur.t = s.cur.retire.t.add (fixedResult s.cur f r x lat) := by
    rw [State.cur_setCur]; rfl
  unfold SameFlags
  rw [hc, h]
  exact ⟨rfl, rfl⟩

end Sys2Proof.Machine
end

