-- ==== Sys2Proof/Tests/Slice0.lean ====
section
/-!
SUPPORT. Tests: what the checks of a word's fields refuse, what words decode to, and a state that meets the hypotheses of each
statement, clause by clause.
-/
open Sys2Proof Sys2Proof.Machine
namespace Sys2Proof.Tests

set_option Elab.async false

/-! ## States to start from -/

/-- Core 0 changed in a state. -/
def on (s : State) (f : Core → Core) : State := s.modCore 0 f
/-- Scalar registers of core 0. -/
def withRegs (l : List (Nat × W64)) (c : Core) : Core :=
  { c with t := { c.t with s := l.foldl (fun v e => v.setIfInBounds e.1 e.2) c.t.s } }
/-- Core 0 at reset, with scalar registers. -/
def regs (l : List (Nat × W64)) : State := on State.reset (withRegs l)
/-- The thread of core 0 changed in a state. -/
def onT (s : State) (f : Thread → Thread) : State := on s (fun c => { c with t := f c.t })
/-- The step's operands. -/
def withEv (s : State) (core pick : Nat) (val : W64) (data : List Byte) (ok : Bool) : State :=
  { s with ev := { core := core, pick := pick, val := val, data := data, ok := ok } }
/-- An address of core 0's scratchpad, of a generator window, and of no window. -/
def spad : W64 := 0x00F8_0000_0000_1000
def gen0 : W64 := 0x00FC_0000_0000_0000
def hole : W64 := 0x0100_0000_0000_0000

/-- A region of cores 0 and 1, with nothing of its own. -/
def rcb0 : Rcb where
  modef := 0
  prio := 0
  nlog := 8
  fdom := 0
  pdom := 0
  keyslot := 0
  drawlim := 0
  qshare := 0
  quantum := 100
  qdeadline := 10
  parklim := 0
  savert := spad
  quiesce := spad
  inboxent := spad
  genblk := 0
  fheap := spad
  fheapn := 4
  framesz := 256
  fpool := spad + 0x1000
  fpooln := 4
  spillq := 0
  graph := spad + 0x2000
  place := 0
  cq := List.replicate 16 0
  bcores := 0
  bpress := 0
  bscr := 0
  bpages := 0
  govhi := 0
  govlo := 0
  govmask := 0
def ctx0 : Ctx where
  rcbAddr := spad + 0x3000
  lineage := [7]
  rcb := rcb0
  cores := [0, 1]
  home := 0
  H := 100
  vint := 5
  voidcnt := 0
  saved := false
  yreq := none
  lost := false
  pops := []
  draws := []
  skip := List.replicate 16 0
  chains := List.replicate 16 0
  pageBase := 0
  npages := 0
  devices := [0]
  seq := 0
  stages := []
  govAt := 0
  events := []
  marks := []
  freeHead := 0
  ended := []
  block := 0
  rebind := []
  committing := false
  toCommit := []
  engines := false
/-- Core 0 at user level in region 7, its protection entries open to everything, with 9 units. -/
def user (x : Ctx) : State :=
  on { State.reset with ctxs := [(7, x)] } (fun c => { c with
    pl := 0, ctxid := 7, region := 7
    plb := (Vector.replicate 64 { base := 0, pages := 0xFFFF_FFFF, domain := 0, rights := 0x3F }).set 1
      { base := 0xF8_0000_0000_0000, pages := 0xFFFF_FFFF, domain := 0, rights := 0x3F }
    t := { c.t with w := 9, vint := 5 } })

/-- The hypotheses on a word and on a core, as one test each. -/
theorem ready {i : Instr} {s : State}
    (h : ((s.cur.issueCheck i).isNone && !s.cur.awaits (sourcesOf i) && (s.cur.markedDest i).isNone) = true) : Ready i s := by
  simp only [Bool.and_eq_true, Option.isNone_iff_eq_none, Bool.not_eq_true'] at h
  exact ⟨h.1.1, h.1.2, h.2⟩
theorem settled {s : State}
    (h : (!s.cur.uncleared && s.cur.mem.all Access.isJoin && !s.cur.marked && s.cur.replay.isEmpty && decide (s.cur.txn = .none)
      && !s.isDet s.cur) = true) : Settled s := by
  simp only [Bool.and_eq_true, Bool.not_eq_true', decide_eq_true_eq, List.isEmpty_iff] at h
  obtain ⟨⟨⟨⟨⟨a, b⟩, c⟩, d⟩, e⟩, f⟩ := h
  exact ⟨a, b, c, d, e, f⟩

theorem sourced {i : Instr} {s : State} (h : Unbound i s) : Sourced i s := ⟨h.2, by simp [h.1]⟩

/-! ## Integers, floats and vectors: registers alone -/

def w1 : State := regs [(2, 7), (3, 0x8000_0000_0000_0000)]
theorem meets_integer : ∃ x, intSpec w1 (.add 31 2 2) = some x ∧ Ready (.add 31 2 2) w1 := ⟨_, rfl, ready (by decide +kernel)⟩
theorem meets_integer_zero : ∃ x, intSpec w1 (.cmpp 0 1 2 0 5) = some x ∧ Ready (.cmpp 0 1 2 0 5) w1 :=
  ⟨_, rfl, ready (by decide +kernel)⟩
def dztOn (s : State) : State := on s (fun c => { c with dzt := true })
def divBusy (s : State) : State := onT s (fun t => { t with div := some { tag := 0, val := 1, flags := 0, due := 9, issued := 0, float := false } })
theorem meets_divide : ∃ z n, divSpec w1 (.div 5 3 2) = some (5, 0x8000_0000_0000_0000, 7, z, n) ∧ Ready (.div 5 3 2) w1
    ∧ w1.cur.t.div = none := ⟨_, _, rfl, ready (by decide +kernel), rfl⟩
theorem meets_divide_trap : ∃ z n, divSpec (dztOn w1) (.rem 0 3 0) = some (0, 0x8000_0000_0000_0000, 0, z, n)
    ∧ Ready (.rem 0 3 0) (dztOn w1) ∧ (dztOn w1).cur.dzt = true := ⟨_, _, rfl, ready (by decide +kernel), rfl⟩
theorem meets_divide_busy : ∃ z n, divSpec (divBusy w1) (.divu 5 3 2) = some (5, 0x8000_0000_0000_0000, 7, z, n)
    ∧ Ready (.divu 5 3 2) (divBusy w1) ∧ (divBusy w1).cur.t.div ≠ none := ⟨_, _, rfl, ready (by decide +kernel), by decide +kernel⟩
theorem meets_float : ∃ x, floatSpec w1 (.fadd 4 2 3 .f64 0) = some x ∧ Ready (.fadd 4 2 3 .f64 0) w1 :=
  ⟨_, rfl, ready (by decide +kernel)⟩
theorem meets_float_divide : ∃ x, floatDivSpec w1 (.fsqrt 4 2 .f32 1) = some x ∧ Ready (.fsqrt 4 2 .f32 1) w1
    ∧ w1.cur.t.div = none := ⟨_, rfl, ready (by decide +kernel), rfl⟩
/-- Generator 0 computes, so that stochastic draws find their words. -/
def w2 : State := onT w1 (fun t => { t with gens := t.gens.set 0 1 })
theorem meets_float_conversion : Ready (.fcvtFf 4 2 1 .f64 .bf16 6) w2 ∧ w2.srFault 1 = none :=
  ⟨ready (by decide +kernel), by decide +kernel⟩

theorem meets_float_conversion_trap : Ready (.fcvtFf 4 2 1 .f64 .bf16 6) w1 ∧ (w1.srFault 1).isSome = true
    ∧ (roundTo (w1.flt .f64 2) (fmtOf .bf16) 6 true (w1.cur.srWord 0)).drew = true :=
  ⟨ready (by decide +kernel), by decide +kernel, by decide +kernel⟩

/-- A slot of the lowest type, two of float types and one more; the ZERO bit of slot 1 on. -/
def v1 : State := onT w2 (fun t => { t with vtt := 0x0905_1400 })
theorem meets_lanes : (vecSpec v1 (.vadd 27 1 2 7 0)).isSome = true ∧ Ready (.vadd 27 1 2 7 0) v1 ∧ Sourced (.vadd 27 1 2 7 0) v1 :=
  ⟨by decide +kernel, ready (by decide +kernel), sourced ⟨by decide +kernel, by decide +kernel⟩⟩
theorem meets_float_lanes : (vecSpec v1 (.vexp2 31 1 0 1)).isSome = true ∧ Ready (.vexp2 31 1 0 1) v1 ∧ Sourced (.vexp2 31 1 0 1) v1 :=
  ⟨by decide +kernel, ready (by decide +kernel), sourced ⟨by decide +kernel, by decide +kernel⟩⟩
theorem meets_compares : (vecCmp v1 (.vcle 7 1 2 0 2)).isSome = true ∧ Ready (.vcle 7 1 2 0 2) v1 ∧ Sourced (.vcle 7 1 2 0 2) v1 :=
  ⟨by decide +kernel, ready (by decide +kernel), sourced ⟨by decide +kernel, by decide +kernel⟩⟩
theorem meets_reductions : (vecRed v1 (.vredAdd 0 1 0 1)).isSome = true ∧ Ready (.vredAdd 0 1 0 1) v1 ∧ Sourced (.vredAdd 0 1 0 1) v1 :=
  ⟨by decide +kernel, ready (by decide +kernel), sourced ⟨by decide +kernel, by decide +kernel⟩⟩
theorem meets_whole : (vecWhole v1 (.vmovp 3 7 1 0)).isSome = true ∧ Ready (.vmovp 3 7 1 0) v1 ∧ Sourced (.vmovp 3 7 1 0) v1 :=
  ⟨by decide +kernel, ready (by decide +kernel), sourced ⟨by decide +kernel, by decide +kernel⟩⟩
theorem meets_moves : (vecMove v1 (.vext 31 1 2 3)).isSome = true ∧ Ready (.vext 31 1 2 3) v1 ∧ Sourced (.vext 31 1 2 3) v1 :=
  ⟨by decide +kernel, ready (by decide +kernel), sourced ⟨by decide +kernel, by decide +kernel⟩⟩
theorem meets_conversions : Ready (.vcvt 3 1 1 1 0 0) v1 ∧ Sourced (.vcvt 3 1 1 1 0 0) v1 ∧ Ready (.vcvtb 3 1 0 1) v1
    ∧ Sourced (.vcvtb 3 1 0 1) v1 ∧ Ready (.vcvtb 3 1 1 1) v1 ∧ Sourced (.vcvtb 3 1 1 1) v1 :=
  ⟨ready (by decide +kernel), sourced ⟨by decide +kernel, by decide +kernel⟩, ready (by decide +kernel), sourced ⟨by decide +kernel, by decide +kernel⟩, ready (by decide +kernel), sourced ⟨by decide +kernel, by decide +kernel⟩⟩
/-- FP32 lanes to round stochastically into FP16, with a generator that computes and with none. -/
def srOf (s : State) : State := onT s (fun t => { t with
  rmode := 6, vtt := 0x0905_1406, v := t.v.set 1 0x3f9e0652_3eaaaaab_40490fdb })
theorem meets_stochastic : Ready (.vcvt 3 1 0 1 0 0) (srOf w2) ∧ Sourced (.vcvt 3 1 0 1 0 0) (srOf w2)
    ∧ (srOf w2).cvtDraws 1 0 1 0 0 16 = 3 ∧ (srOf w2).srFault 3 = none
    ∧ Ready (.vcvt 3 1 0 1 0 0) (srOf w1) ∧ Sourced (.vcvt 3 1 0 1 0 0) (srOf w1)
    ∧ (srOf w1).cvtDraws 1 0 1 0 0 16 = 3 ∧ ((srOf w1).srFault 3).isSome = true :=
  ⟨ready (by decide +kernel), sourced ⟨by decide +kernel, by decide +kernel⟩, by decide +kernel, by decide +kernel,
    ready (by decide +kernel), sourced ⟨by decide +kernel, by decide +kernel⟩, by decide +kernel, by decide +kernel⟩

/-! ## Branches, traps and special registers -/

/-- User level, in word 1 of a lone bundle. -/
def u1 : State := on (user ctx0) (fun c => { c with
  iss := { c.iss with pc := spad + 4, next := spad + 8, word1 := true, lone1 := true, stall := 3 }, tvec := spad + 0x100 })
theorem meets_branch_taken : branchSpec u1 (.brEq 1 2 (-512)) = some (-512, true) ∧ Ready (.brEq 1 2 (-512)) u1
    ∧ u1.cur.leader = none ∧ u1.cur.marked = false := ⟨by decide +kernel, ready (by decide +kernel), rfl, rfl⟩
theorem meets_branch_not_taken : branchSpec u1 (.brp 7 0 511) = some (511, false) ∧ Ready (.brp 7 0 511) u1
    ∧ u1.cur.leader = none := ⟨by decide +kernel, ready (by decide +kernel), rfl⟩
theorem meets_jumps : Ready (.jmp 0x80000) u1 ∧ Ready (.jal 5) u1 ∧ Ready (.jr 0 1 (-1)) u1
    ∧ (u1.rs 1 + BitVec.ofInt 64 (8 * (-1))).toNat % 8 = 0 :=
  ⟨ready (by decide +kernel), ready (by decide +kernel), ready (by decide +kernel), by decide +kernel⟩
theorem meets_bad_target : Ready (.jr 4 2 0) w1 ∧ (w1.rs 2 + BitVec.ofInt 64 (8 * 0)).toNat % 8 ≠ 0 := ⟨ready (by decide +kernel), by decide +kernel⟩
theorem meets_trap_entry : u1.cur.uncleared = false ∧ u1.cur.pl = 0 ∧ (on u1 (fun c => { c with pl := 1 })).cur.pl = 1
    ∧ State.reset.cur.uncleared = false ∧ State.reset.cur.pl = 2 := by decide +kernel
theorem meets_trap_word : Ready (.trap 0xFFFFF) u1 ∧ u1.cur.uncleared = false ∧ u1.cur.pl = 0 := ⟨ready (by decide +kernel), by decide +kernel, rfl⟩
/-- A load that is not yet performed. -/
def load1 : Access where
  tag := 3
  kind := .load
  form := .zext
  addr := spad
  bytes := (List.range 8).map (fun i => State.reset.locate (spad + BitVec.ofNat 64 i))
  data := []
  data2 := 0
  handle := none
  ord := .plain
  scope := .dev
  hint := .default
  ticket := none
  prior := []
  priorTickets := []
  performed := false
  result := []
  cleared := false
  pc := spad
  parked := none
  before := Thread.reset
  instret := 0
  losses := 0
  held := false
def store1 : Access := { load1 with kind := .store, data := [1, 2, 3, 4, 5, 6, 7, 8] }
theorem meets_trap_word_waits : let s := on u1 (fun c => { c with mem := [load1] })
    Ready (.trap 1) s ∧ s.cur.uncleared = true := ⟨ready (by decide +kernel), by decide +kernel⟩
def m1 : State := on State.reset (fun c => { c with tpc := spad, tcause := 0x0010_0002 })
theorem meets_tret : Ready .tret m1 ∧ m1.cur.uncleared = false ∧ m1.retire.resumable m1.cur.tpc = true
    ∧ m1.cur.tretGo = false ∧ m1.cur.leader = none ∧ m1.cur.members = [] := ⟨ready (by decide +kernel), by decide +kernel, by decide +kernel, by decide +kernel, by decide +kernel, by decide +kernel⟩
theorem meets_tret_bad_target : let s := on State.reset (fun c => { c with tpc := spad + 2 })
    Ready .tret s ∧ s.cur.uncleared = false ∧ s.retire.resumable s.cur.tpc = false := ⟨ready (by decide +kernel), by decide +kernel, by decide +kernel⟩
/-- Core 0 leads core 1 in its trap routine, both about to return to user level; `w` says whether core 1 waits in its own. -/
def pairRet (w : Bool) : State :=
  (on State.reset (fun c => { c with tpc := spad, members := [1] })).modCore 1 (fun c => { c with
    leader := some 0, tpc := spad, tretWait := w })
theorem meets_tret_cordon : (let s := pairRet true
    Ready .tret s ∧ s.cur.uncleared = false ∧ s.cur.tretGo = false ∧ s.retire.resumable s.cur.tpc = true
      ∧ s.cur.tcause.extractLsb' 20 2 = 0 ∧ s.cordonOf s.ev.core = [0, 1] ∧ (s.coreAt 1).tretWait = true ∧ (s.coreAt 1).tpc = s.cur.tpc)
    ∧ (let s := pairRet false
      Ready .tret s ∧ s.retire.resumable s.cur.tpc = true ∧ s.cordonOf s.ev.core = [0, 1] ∧ (s.coreAt 1).tretWait = false)
    ∧ let s := on (pairRet true) (fun c => { c with tretGo := true })
      Ready .tret s ∧ s.cur.uncleared = false ∧ s.cur.tretGo = true :=
  ⟨⟨ready (by decide +kernel), by decide +kernel, by decide +kernel, by decide +kernel, by decide +kernel, by decide +kernel, by decide +kernel, by decide +kernel⟩,
    ⟨ready (by decide +kernel), by decide +kernel, by decide +kernel, by decide +kernel⟩, ready (by decide +kernel), by decide +kernel, by decide +kernel⟩
/-- The divider holds an earlier `fdiv`. -/
def floatDiv (s : State) : State := on s (fun c => { c with
  iss := { c.iss with nom := 4 }, t := { c.t with div := some { tag := 0, val := 1, flags := 1, due := 90, issued := 3, float := true } } })
theorem meets_csr_read : Ready (.csrr 4 0x106) u1 ∧ Ready (.csrr 4 2) w1 ∧ ¬ FloatDivOut w1 ∧ Ready (.csrr 4 2) (floatDiv w1)
    ∧ FloatDivOut (floatDiv w1) :=
  ⟨ready (by decide +kernel), ready (by decide +kernel), (by rintro ⟨q, h, -⟩; exact nomatch h), ready (by decide +kernel), _, rfl, rfl, by decide +kernel⟩
theorem meets_csr_write : Ready (.csrw 2 0x100) u1 ∧ u1.cur.pl = 0 ∧ csrReadOnly u1.cur.pl false 0x100
    ∧ Ready (.csrx 4 2 0x100) w1 ∧ w1.cur.uncleared = false
    ∧ CsrStores w1.cur.pl w1.cur.retire (w1.rs 2) 0x100 { w1.cur.retire with tvec := w1.rs 2 &&& 0x00FF_FFFF_FFFF_FFF8 } :=
  ⟨ready (by decide +kernel), rfl, by unfold csrReadOnly; decide, ready (by decide +kernel), by decide +kernel, .tvec (by decide +kernel)⟩
theorem meets_csr_write_waits : (let s := on w1 (fun c => { c with mem := [load1] })
      Ready (.csrw 2 0x100) s ∧ s.cur.pl ≠ 0 ∧ s.cur.uncleared = true ∧ Ready (.csrx 4 2 0x100) s)
    ∧ Ready (.csrw 2 2) (floatDiv w1) ∧ Ready (.csrx 4 2 2) (floatDiv w1) ∧ FloatDivOut (floatDiv w1) :=
  ⟨⟨ready (by decide +kernel), by decide +kernel, by decide +kernel, ready (by decide +kernel)⟩, ready (by decide +kernel), ready (by decide +kernel), _, rfl, rfl, by decide +kernel⟩
theorem meets_flagsum_and_vtt : Ready (.csrw 2 0x104) w1 ∧ w1.cur.uncleared = false ∧ w1.cur.pl ≠ 0 ∧ Ready (.csrw 2 0x004) w1 :=
  ⟨ready (by decide +kernel), by decide +kernel, by decide +kernel, ready (by decide +kernel)⟩

/-! ## Words that enter the memory order -/

/-- The address lies in no generator window. -/
theorem notGen {s : State} {a : W64} (h : (match s.window a with | .gen _ _ => false | _ => true) = true) :
    ∀ g off, s.window a ≠ .gen g off := by
  intro g off e; rw [e] at h; cases h

theorem meets_nops : Ready .nop State.reset ∧ Ready .nopA u1 := ⟨ready (by decide +kernel), ready (by decide +kernel)⟩
/-- s4 names the scratchpad, s5 a generator window, s6 no window, s7 a doubleword. -/
def p1 : State := on w2 (withRegs [(4, spad), (5, gen0), (6, hole), (7, 0x0102_0304_0506_0708)])
/-- The same at user level in a region. -/
def p2 : State := on (user ctx0) (withRegs [(4, spad), (5, 0x4000), (6, hole), (7, 0x0102_0304_0506_0708)])
theorem meets_load : loadSpec p1 (.ldD 7 4 0 .acq .sys .bypass) = some (7, spad, 8, false, 0, .acq, .sys, .bypass)
    ∧ Ready (.ldD 7 4 0 .acq .sys .bypass) p1 ∧ Goes p1 .load spad 8 ∧ ∀ g off, p1.window spad ≠ .gen g off :=
  ⟨rfl, ready (by decide +kernel), ⟨by decide +kernel, _, rfl⟩, notGen (by decide +kernel)⟩
theorem meets_load_checked : loadSpec p1 (.ldoB 7 6 (-512)) = some (7, spOff hole (-512) 1, 1, true, 0, .plain, .dev, .default)
    ∧ Ready (.ldoB 7 6 (-512)) p1 ∧ p1.retire.accCheck p1.retire.cur .load (spOff hole (-512) 1) 1 = some cBadAddress :=
  ⟨rfl, ready (by decide +kernel), by decide +kernel⟩
theorem meets_load_generator : loadSpec p1 (.ldB 7 5 0 .plain .dev .default) = some (7, gen0, 1, true, 0, .plain, .dev, .default)
    ∧ Ready (.ldB 7 5 0 .plain .dev .default) p1 ∧ Goes p1 .load gen0 1 ∧ p1.window gen0 = .gen 0 0 :=
  ⟨rfl, ready (by decide +kernel), ⟨by decide +kernel, _, rfl⟩, by decide +kernel⟩
/-- A generator with a sink, and 32 stores on their way. -/
def sink (s : State) : State := onT s (fun t => { t with gens := t.gens.set 0 (1 ||| (1 <<< 16) ||| (1 <<< 8)) })
def full (s : State) : State := on s (fun c => { c with mem := List.replicate 32 store1 })
theorem meets_store : storeSpec p2 (.stD 7 5 0 .rel .core .stream) = some (7, 0x4000, 8, 0, .rel, .core, .stream)
    ∧ Ready (.stD 7 5 0 .rel .core .stream) p2 ∧ Goes p2 .store 0x4000 8 ∧ (∀ g off, p2.window 0x4000 ≠ .gen g off)
    ∧ RoomForStore p2 :=
  ⟨rfl, ready (by decide +kernel), ⟨by decide +kernel, _, rfl⟩, notGen (by decide +kernel), by unfold RoomForStore; decide +kernel⟩
theorem meets_store_checked : storeSpec p1 (.stoW 7 6 511) = some (7, spOff hole 511 4, 4, 0, .plain, .dev, .default)
    ∧ Ready (.stoW 7 6 511) p1 ∧ p1.retire.accCheck p1.retire.cur .store (spOff hole 511 4) 4 = some cBadAddress :=
  ⟨rfl, ready (by decide +kernel), by decide +kernel⟩
theorem meets_store_full : storeSpec (full p1) (.stoB 7 4 0) = some (7, spOff spad 0 1, 1, 0, .plain, .dev, .default)
    ∧ Ready (.stoB 7 4 0) (full p1) ∧ Goes (full p1) .store (spOff spad 0 1) 1
    ∧ (∀ g off, (full p1).window (spOff spad 0 1) ≠ .gen g off)
    ∧ ¬ RoomForStore (full p1) :=
  ⟨rfl, ready (by decide +kernel), ⟨by decide +kernel, _, rfl⟩, notGen (by decide +kernel), by unfold RoomForStore; decide +kernel⟩
theorem meets_atomic : amoSpec p1 (.cas 7 4 0 .acqrel .sys .default) = some (7, spad, 9, 0, .acqrel, .sys, .default)
    ∧ Ready (.cas 7 4 0 .acqrel .sys .default) p1 ∧ Goes p1 .atomic spad 8 :=
  ⟨rfl, ready (by decide +kernel), ⟨by decide +kernel, _, rfl⟩⟩
theorem meets_atomic_checked : amoSpec p1 (.amoAdd 0 6 0 .plain .dev .default) = some (0, hole, 0, 0, .plain, .dev, .default)
    ∧ Ready (.amoAdd 0 6 0 .plain .dev .default) p1 ∧ p1.retire.accCheck p1.retire.cur .atomic hole 8 = some cBadAddress :=
  ⟨rfl, ready (by decide +kernel), by decide +kernel⟩
theorem meets_vector_load : Ready (.vld 1 4 0 .plain .dev .default) p1 ∧ Unbound (.vld 1 4 0 .plain .dev .default) p1
    ∧ p1.cur.streamOf 1 = none ∧ Goes p1 .vload spad 64 ∧ ∀ g off, p1.window spad ≠ .gen g off :=
  ⟨ready (by decide +kernel), ⟨by decide +kernel, by decide +kernel⟩, by decide +kernel, ⟨by decide +kernel, _, rfl⟩, notGen (by decide +kernel)⟩
theorem meets_vector_load_generator : Ready (.vld 1 5 0 .plain .dev .default) p1 ∧ Unbound (.vld 1 5 0 .plain .dev .default) p1
    ∧ p1.cur.streamOf 1 = none ∧ Goes p1 .vload gen0 64 ∧ p1.window gen0 = .gen 0 0 :=
  ⟨ready (by decide +kernel), ⟨by decide +kernel, by decide +kernel⟩, by decide +kernel, ⟨by decide +kernel, _, rfl⟩, by decide +kernel⟩
theorem meets_vector_store : Ready (.vst 1 4 0 .rel .dev .default) p1 ∧ Unbound (.vst 1 4 0 .rel .dev .default) p1
    ∧ Goes p1 .vstore spad 64 ∧ p1.srFault (encodeWindow 0 (p1.cur.rv 1) 1 false p1.cur.srWord).draws = none
    ∧ RoomForStore p1 :=
  ⟨ready (by decide +kernel), ⟨by decide +kernel, by decide +kernel⟩, ⟨by decide +kernel, _, rfl⟩, by decide +kernel, by unfold RoomForStore; decide +kernel⟩
/-- s4 names the scratchpad, the index register is 0, and a slot has INT64 lanes. -/
theorem meets_gather : Ready (.vgath 1 2 4 0 0) p1 ∧ Sourced (.vgath 1 2 4 0 0) p1 ∧ p1.cur.streamOf 1 = none
    ∧ (∀ e ∈ p1.laneList 0 2 4 0, p1.retire.laneCheck p1.retire.cur .load e.2 (p1.vw 0) = none)
    ∧ ((p1.laneList 0 2 4 0).filter (fun e => !isGen (p1.window e.2))).head? = some (0, spad) ∧ Stays p1 spad ∧ p1.cur.gathersOut < 4 :=
  ⟨ready (by decide +kernel), sourced ⟨by decide +kernel, by decide +kernel⟩, by decide +kernel, by decide +kernel, by decide +kernel, ⟨_, rfl⟩, by decide +kernel⟩
theorem meets_gather_trap : Ready (.vgath 1 2 6 0 0) p1 ∧ Sourced (.vgath 1 2 6 0 0) p1 ∧ p1.cur.streamOf 1 = none
    ∧ (p1.laneList 0 2 6 0)[0]? = some (0, hole) ∧ p1.retire.laneCheck p1.retire.cur .load hole (p1.vw 0) = some cBadAddress :=
  ⟨ready (by decide +kernel), sourced ⟨by decide +kernel, by decide +kernel⟩, by decide +kernel, by decide +kernel, by decide +kernel⟩
theorem meets_gather_generator : Ready (.vgath 1 2 5 0 0) p1 ∧ Sourced (.vgath 1 2 5 0 0) p1
    ∧ (∀ e ∈ p1.laneList 0 2 5 0, p1.retire.laneCheck p1.retire.cur .load e.2 (p1.vw 0) = none)
    ∧ (p1.laneList 0 2 5 0).filter (fun e => !isGen (p1.window e.2)) = [] ∧ p1.laneList 0 2 5 0 ≠ [] :=
  ⟨ready (by decide +kernel), sourced ⟨by decide +kernel, by decide +kernel⟩, by decide +kernel, by decide +kernel, by decide +kernel⟩
theorem meets_scatter : Ready (.vscat 1 2 4 0 0) p1 ∧ Sourced (.vscat 1 2 4 0 0) p1
    ∧ (∀ e ∈ p1.laneList 0 2 4 0, p1.retire.laneCheck p1.retire.cur .store e.2 (p1.vw 0) = none)
    ∧ ((p1.laneList 0 2 4 0).filter (fun e => !isGen (p1.window e.2))).head? = some (0, spad) ∧ Stays p1 spad
    ∧ p1.cur.gathersOut < 4 ∧ p1.cur.unacked = 0 ∧ p1.cur.pushes = [] :=
  ⟨ready (by decide +kernel), sourced ⟨by decide +kernel, by decide +kernel⟩, by decide +kernel, by decide +kernel, ⟨_, rfl⟩, by decide +kernel, by decide +kernel, by decide +kernel⟩
theorem meets_scatter_trap : Ready (.vscat 1 2 6 0 0) p1 ∧ Sourced (.vscat 1 2 6 0 0) p1
    ∧ (p1.laneList 0 2 6 0)[0]? = some (0, hole) ∧ p1.retire.laneCheck p1.retire.cur .store hole (p1.vw 0) = some cBadAddress :=
  ⟨ready (by decide +kernel), sourced ⟨by decide +kernel, by decide +kernel⟩, by decide +kernel, by decide +kernel⟩
theorem meets_vector_atomic : Ready (.vamo 1 3 4 0 0) p1 ∧ Sourced (.vamo 1 3 4 0 0) p1 ∧ Goes p1 .vatomic spad 64
    ∧ Ready (.vamo 1 3 6 0 0) p1 ∧ p1.retire.accCheck p1.retire.cur .vatomic hole 64 = some cBadAddress :=
  ⟨ready (by decide +kernel), sourced ⟨by decide +kernel, by decide +kernel⟩, ⟨by decide +kernel, _, rfl⟩, ready (by decide +kernel), by decide +kernel⟩
theorem meets_sinks : storeSpec (sink p1) (.stD 7 5 0 .plain .dev .default) = some (7, gen0, 8, 0, .plain, .dev, .default)
    ∧ Ready (.stD 7 5 0 .plain .dev .default) (sink p1) ∧ Goes (sink p1) .store gen0 8 ∧ (sink p1).window gen0 = .gen 0 0
    ∧ Ready (.vst 1 5 0 .plain .dev .default) (sink p1) ∧ Unbound (.vst 1 5 0 .plain .dev .default) (sink p1)
    ∧ Goes (sink p1) .vstore gen0 64
    ∧ (sink p1).srFault (encodeWindow 0 ((sink p1).cur.rv 1) 1 false (sink p1).cur.srWord).draws = none :=
  ⟨rfl, ready (by decide +kernel), ⟨by decide +kernel, _, rfl⟩, by decide +kernel, ready (by decide +kernel), ⟨by decide +kernel, by decide +kernel⟩, ⟨by decide +kernel, _, rfl⟩, by decide +kernel⟩
theorem meets_vector_store_stops : (let s := full p1
      Ready (.vst 1 4 0 .rel .dev .default) s ∧ Unbound (.vst 1 4 0 .rel .dev .default) s ∧ Goes s .vstore spad 64
        ∧ (∀ g off, s.window spad ≠ .gen g off) ∧ ¬ RoomForStore s)
    ∧ Ready (.vld 1 6 0 .plain .dev .default) p1 ∧ Ready (.vst 1 6 0 .plain .dev .default) p1
    ∧ p1.retire.accCheck p1.retire.cur .vload hole 64 = some cBadAddress
    ∧ p1.retire.accCheck p1.retire.cur .vstore hole 64 = some cBadAddress :=
  ⟨⟨ready (by decide +kernel), ⟨by decide +kernel, by decide +kernel⟩, ⟨by decide +kernel, _, rfl⟩, notGen (by decide +kernel), by unfold RoomForStore; decide +kernel⟩,
    ready (by decide +kernel), ready (by decide +kernel), by decide +kernel, by decide +kernel⟩

/-! ## Handles -/

/-- h1 and h2 name the first two sequencers, each with one holder; ticket 0 of the second is open. -/
def id1 : W32 := 0x1
def id2 : W32 := 0x11
def h1 : State :=
  onT { State.reset with seqrs := [(0, { Seqr.reset with alloc := true, holders := 1 }),
      (1, { Seqr.reset with alloc := true, holders := 2, next := 1, opens := [0] })] } (fun t => { t with
    h := (t.h.set 1 (some { id := id1, scope := .dev })).set 2 (some { id := id2, scope := .sys }) })
/-- Every sequencer of the supergroup is taken. -/
def h2 : State := { h1 with seqrs := (List.range 256).map (fun i => (i, { Seqr.reset with alloc := true, holders := 1 })) }
theorem idle {s : State} (h : (!s.cur.uncleared && s.cur.mem.all Access.isJoin && !s.cur.marked && s.cur.replay.isEmpty
    && decide (s.cur.txn = .none) && !s.isDet s.cur) = true) (k : s.cur.mem = []) : Idle s := ⟨settled h, k⟩
theorem meets_handle_new : Idle h1 ∧ Ready (.hnew 3 .core) h1 ∧ h1.freeSeqr h1.ev.core = some 0x21 ∧ h1.foreign 0x21 = false ∧ Ready (.hfork 3 2 .sys) h1 :=
  ⟨idle (by decide +kernel) rfl, ready (by decide +kernel), by decide +kernel, by decide +kernel, ready (by decide +kernel)⟩
theorem meets_handle_none_free : Idle h2 ∧ Ready (.hnew 3 .core) h2 ∧ h2.freeSeqr h2.ev.core = none ∧ Ready (.hfork 3 2 .sys) h2 :=
  ⟨idle (by decide +kernel) rfl, ready (by decide +kernel), by decide +kernel, ready (by decide +kernel)⟩
theorem meets_join : Ready (.hjoin 1 2 .dev) h1 ∧ h1.handle 1 = some { id := id1, scope := .dev } ∧ Idle h1 ∧ h1.foreign id1 = false
    ∧ Ready (.hjoin 0 1 .dev) h1 ∧ h1.handle 0 = none ∧ QuietUnder h1 { id := id1, scope := .dev } :=
  ⟨ready (by decide +kernel), by decide +kernel, idle (by decide +kernel) rfl, by decide +kernel, ready (by decide +kernel), by decide +kernel, by decide +kernel, by decide +kernel⟩
theorem meets_join_waits : Ready (.hjoin 0 2 .dev) h1 ∧ h1.handle 0 = none ∧ h1.handle 2 = some { id := id2, scope := .sys } ∧ Idle h1
    ∧ BusyUnder h1 { id := id2, scope := .sys } :=
  ⟨ready (by decide +kernel), by decide +kernel, by decide +kernel, idle (by decide +kernel) rfl, by decide +kernel, 0, by decide +kernel⟩
/-- The word has marked the first ticket of a sequencer. -/
def marked (k : Nat) : State := on h1 (fun c => { c with txn := .marks [(k, 1)] [] })
theorem meets_join_marks : Ready (.hjoin 0 2 .dev) (marked 0) ∧ (marked 0).handle 0 = none ∧ (marked 0).cur.txn = .marks [(0, 1)] []
    ∧ MarksDone (marked 0) [(0, 1)] [] (fun x => (marked 0).handle 2 = none ∧ x.handle = none ∧ x.isJoin = false) :=
  ⟨ready (by decide +kernel), by decide +kernel, rfl, by decide +kernel, by decide +kernel, fun x h => nomatch h⟩
theorem meets_free : Ready (.hfree 1) h1 ∧ h1.handle 1 = some { id := id1, scope := .dev } ∧ h1.isDet h1.cur = false
    ∧ h1.cur.mem = [] ∧ h1.cur.uncleared = false ∧ (h1.seqr id1).alloc = true
    ∧ (h1.seqr id1).gen = id1.extractLsb' 0 4 ∧ (h1.seqr id1).holders = 1 ∧ (h1.seqr id1).opens = []
    ∧ Ready (.hfree 2) h1 ∧ (h1.seqr id2).gen = id2.extractLsb' 0 4 ∧ 2 ≤ (h1.seqr id2).holders :=
  ⟨ready (by decide +kernel), by decide +kernel, by decide +kernel, by decide +kernel, by decide +kernel, by decide +kernel, by decide +kernel, by decide +kernel, by decide +kernel, ready (by decide +kernel), by decide +kernel,
    by decide +kernel⟩
theorem meets_free_early : let s := on h1 (fun c => { c with mem := [load1] })
    Ready (.hfree 1) s ∧ s.handle 1 = some { id := id1, scope := .dev } ∧ s.isDet s.cur = false ∧ s.cur.uncleared = true :=
  ⟨ready (by decide +kernel), by decide +kernel, by decide +kernel, by decide +kernel⟩
def load2 : Access := { load1 with handle := some { id := id1, scope := .dev }, cleared := true }
theorem meets_wait : let s := on h1 (fun c => { c with mem := [{ load2 with performed := true }, load1] })
    Ready (.hwait 1 .dev) s
      ∧ ∀ x ∈ s.cur.mem, (∀ id, x.kind ≠ .unhold id) ∧ x.handle.map (·.id) = (s.handle 1).map (·.id) → x.performed = true := by
  refine ⟨ready (by decide +kernel), fun x h k => ?_⟩
  rcases List.mem_cons.1 h with rfl | h
  · rfl
  · exact absurd k.2 ((by decide +kernel : ∀ x ∈ [load1], x.handle.map (·.id) ≠ (h1.handle 1).map (·.id)) x h)
theorem meets_wait_waits : let s := on h1 (fun c => { c with mem := [load2] })
    Ready (.hwait 1 .dev) s ∧ load2 ∈ s.cur.mem ∧ (∀ id, load2.kind ≠ .unhold id)
      ∧ load2.handle.map (·.id) = (s.handle 1).map (·.id) ∧ load2.performed = false :=
  ⟨ready (by decide +kernel), by decide +kernel, fun _ => nofun, by decide +kernel, by decide +kernel⟩
def h3 : State := { h1 with seqrs := [(0, { Seqr.reset with alloc := true, holders := 1 }), (1, { Seqr.reset with alloc := true, holders := 2 })] }
theorem meets_fence : Ready (.fence .sys) h3 ∧ Idle h3
    ∧ ∀ k : Nat, ∀ hd, 0 < k → h3.cur.t.h.toList[k]? = some (some hd) → QuietUnder h3 hd := by
  refine ⟨ready (by decide +kernel), idle (by decide +kernel) rfl, fun k hd _ hk => ?_⟩
  have hm : hd ∈ (h3.cur.t.h.toList.filterMap id) := List.mem_filterMap.2 ⟨_, List.mem_of_getElem? hk, rfl⟩
  revert hd
  exact fun hd hk hm => (by decide +kernel : ∀ hd ∈ h3.cur.t.h.toList.filterMap id,
    h3.foreign hd.id = false ∧ ∀ o ∈ (h3.seqr hd.id).opens, (h3.seqr hd.id).next ≤ o ∨ h3.engineTicket (seqrKey hd.id) o = true) hd hm
theorem meets_fence_waits : (let s := on h3 (fun c => { c with mem := [load1] })
      Ready (.fence .dev) s ∧ load1 ∈ s.cur.mem ∧ load1.handle = none ∧ load1.performed = false ∧ load1.isJoin = false)
    ∧ Ready (.fence .dev) h1 ∧ Idle h1 ∧ h1.cur.t.h.toList[2]? = some (some { id := id2, scope := .sys })
    ∧ BusyUnder h1 { id := id2, scope := .sys } :=
  ⟨⟨ready (by decide +kernel), by decide +kernel, by decide +kernel, by decide +kernel, by decide +kernel⟩, ready (by decide +kernel), idle (by decide +kernel) rfl, by decide +kernel, by decide +kernel, 0, by decide +kernel⟩
theorem meets_fence_marks : Ready (.fence .dev) (marked 0) ∧ (marked 0).cur.txn = .marks [(0, 1)] [] ∧ MarksDone (marked 0) [(0, 1)] [] (fun x => x.isJoin = false) :=
  ⟨ready (by decide +kernel), rfl, by decide +kernel, by decide +kernel, fun x h => nomatch h⟩

/-! ## Messages, queues and weight -/

/-- s1 names core 1, s2 asks for half and has a tag, s3 starts code 0x4000 at priority 5, s16 names queue 3, whose ring is empty, and
s17 queue 4, which has an entry; s18 is marked. -/
def qh3 : W32 := 0x3001
def qh4 : W32 := 0x4001
def q3 : Queue := { Queue.reset with live := true, base := spad + 0x4000, k := 2, owner := 7 }
def msg1 : Msg := { kf := 0x1202, vint := 5, weight := 3, src := 1, hnd := id1, payload := [1, 2, 3, 4, 5, 6], ctx := 7 }
def n1 : State := on { user ctx0 with
    queues := [(3, q3), (4, { q3 with tail := 1 })]
    seqrs := [(0, { Seqr.reset with alloc := true, holders := 2, owner := 7 })] } (fun c => withRegs [(1, 1), (2, 0xAB00_0000_0000_0000),
      (3, 0x5400_0000_0000_4000), (16, 0x8000_0000_0000_3001), (17, 0x8000_0000_0000_4001), (18, 0x99)]
      { c with t := { c.t with fmask := 0x4000, h := c.t.h.set 1 (some { id := id1, scope := .core }) } })
def noCredit (s : State) : State := on s (fun c => { c with credits := 0 })
theorem meets_send : Ready (.send 1 2 18 1 1) n1 ∧ Settled n1 ∧ n1.destCheck 1 = none ∧ n1.futCheck 18 1 = none
    ∧ CanTake n1 0 ∧ n1.cur.injVanish = false ∧ n1.cur.injHold = none ∧ n1.ticketWait 1 = false ∧ n1.cur.credits ≠ 0 :=
  ⟨ready (by decide +kernel), settled (by decide +kernel), by decide +kernel, by decide +kernel, by unfold CanTake; decide, rfl, rfl, by decide +kernel, by decide +kernel⟩
theorem meets_send_start : Ready (.send 3 2 4 0 0) n1 ∧ n1.destCheck (n1.rs 3) = none ∧ (n1.rs 3).toNat / 2 ^ 62 = 1 :=
  ⟨ready (by decide +kernel), by decide +kernel, by decide +kernel⟩
theorem meets_send_waits : Ready (.send 16 2 4 0 0) (noCredit n1) ∧ Settled (noCredit n1) ∧ (noCredit n1).cur.credits = 0
    ∧ (noCredit n1).destCheck ((noCredit n1).rs 16) = none ∧ CanTake (noCredit n1) 0 :=
  ⟨ready (by decide +kernel), settled (by decide +kernel), rfl, by decide +kernel, by unfold CanTake; decide⟩
theorem meets_qenq : Ready (.qenq 16 2 18 0 1) n1 ∧ (n1.rs 16).toNat / 2 ^ 62 = 2 ∧ n1.destCheck (n1.rs 16) = none
    ∧ n1.isRunQueue qh3 = false ∧ (n1.rs 16).extractLsb' 0 32 = qh3 ∧ n1.futCheck 18 1 = none :=
  ⟨ready (by decide +kernel), by decide +kernel, by decide +kernel, by decide +kernel, by decide +kernel, by decide +kernel⟩
theorem meets_qenq_answer : Ready (.qenq 16 2 18 0 1) (on n1 (fun c => { c with txn := .answered 0 })) := ready (by decide +kernel)
theorem meets_qenq_trap : Ready (.qenq 1 2 18 0 1) n1 ∧ (n1.rs 1).toNat / 2 ^ 62 ≠ 2 ∧ n1.cur.txn = .none :=
  ⟨ready (by decide +kernel), by decide +kernel, rfl⟩
def withInbox (l : List Msg) (s : State) : State := on s (fun c => { c with inbox := l })
def fut1 : Msg := { msg1 with kf := 0x82 }
theorem meets_inbox : let s := withInbox [msg1] n1
    Settled s ∧ s.fresh msg1 = true ∧ Ready (.ibpop 20 2) s ∧ Ready (.ibpeek 20) s :=
  ⟨settled (by decide +kernel), by decide +kernel, ready (by decide +kernel), ready (by decide +kernel)⟩
theorem meets_inbox_future : let s := withInbox [fut1, msg1] n1
    Settled s ∧ s.fresh fut1 = true ∧ Ready (.ibpop 4 0) s ∧ fut1.fut = true ∧ Ready (.ibpop 25 0) s :=
  ⟨settled (by decide +kernel), by decide +kernel, ready (by decide +kernel), by decide +kernel, ready (by decide +kernel)⟩
/-- Queue 4, which has an entry, is the region's spill queue. -/
def n7 : State := { n1 with ctxs := [(7, { ctx0 with rcb := { rcb0 with spillq := qh4 } })] }
theorem meets_inbox_spilled : Settled n7 ∧ n7.cur.inbox = [] ∧ n7.spillOf n7.cur = some (qh4, { q3 with tail := 1 })
    ∧ (n7.ringHead { q3 with tail := 1 }).fut = false ∧ Ready (.ibpop 20 2) n7 ∧ Ready (.ibpeek 20) n7 :=
  ⟨settled (by decide +kernel), rfl, by decide +kernel, by decide +kernel, ready (by decide +kernel), ready (by decide +kernel)⟩
theorem meets_inbox_empty : Settled n1 ∧ n1.cur.inbox = [] ∧ n1.spillOf n1.cur = none ∧ Ready (.ibpop 20 2) n1 ∧ Ready (.ibpeek 20) n1 :=
  ⟨settled (by decide +kernel), rfl, by decide +kernel, ready (by decide +kernel), ready (by decide +kernel)⟩
theorem meets_queue_trap : n1.usableQueue ((n1.rs 1).extractLsb' 0 32) = none ∧ Ready (.qdeq 20 1 2) n1 ∧ Ready (.qtry 20 1 2) n1 :=
  ⟨by decide +kernel, ready (by decide +kernel), ready (by decide +kernel)⟩
theorem meets_queue_empty : n1.usableQueue qh3 = some q3 ∧ q3.head = q3.tail ∧ Ready (.qdeq 20 16 2) n1 ∧ Ready (.qtry 20 16 2) n1 :=
  ⟨by decide +kernel, rfl, ready (by decide +kernel), ready (by decide +kernel)⟩
theorem meets_queue_entry : n1.usableQueue qh4 = some { q3 with tail := 1 } ∧ Ready (.qdeq 20 17 2) n1 ∧ Ready (.qtry 20 17 2) n1
    ∧ (n1.ringHead { q3 with tail := 1 }).fut = false := ⟨by decide +kernel, ready (by decide +kernel), ready (by decide +kernel), by decide +kernel⟩
theorem meets_queue_handed : let s := on n1 (fun c => { c with txn := .item msg1 })
    s.cur.txn = .item msg1 ∧ s.cur.uncleared = false ∧ msg1.payload.length = 6 ∧ msg1.fut = false ∧ Ready (.qdeq 20 16 2) s :=
  ⟨rfl, by decide +kernel, by decide +kernel, by decide +kernel, ready (by decide +kernel)⟩
/-- The ring of queue 4 holds an entry with a reference. -/
def n8 : State := { n1 with mem := [⟨n1.locate (spad + 0x4000), 0x82⟩] }
theorem meets_queue_future : n8.usableQueue qh4 = some { q3 with tail := 1 } ∧ (n8.ringHead { q3 with tail := 1 }).fut = true
    ∧ Ready (.qdeq 20 17 2) n8 ∧ Ready (.qtry 20 17 2) n8 ∧ ¬ (20 : BitVec 5).toNat ≤ 19 :=
  ⟨by decide +kernel, by decide +kernel, ready (by decide +kernel), ready (by decide +kernel), by decide +kernel⟩
/-- Machine level, without a context: s1 names a ring in paged memory. -/
def n2 : State := regs [(1, 0x4000), (2, 3)]
theorem meets_queue_new : Settled n2 ∧ Ready (.qnew 4 1 7) n2 ∧ n2.window 0x4000 = .paged
    ∧ n2.window (0x4000 + BitVec.ofNat 64 (64 * 2 ^ 7 - 1)) = .paged ∧ n2.ringDenied 0x4000 (64 * 2 ^ 7) = none
    ∧ (List.range 1024).find? (fun j => !(FMap.getD n2.queues (n2.ev.core / 64 * 1024 + j) Queue.reset).live) = some 0 :=
  ⟨settled (by decide +kernel), ready (by decide +kernel), by decide +kernel, by decide +kernel, by decide +kernel, by decide +kernel⟩
theorem get?_const {V : Type} (l : List Nat) (x : V) (j : Nat) (h : j ∈ l) : FMap.get? (l.map (fun i => (i, x))) j = some x := by
  induction l with
  | nil => cases h
  | cons a l ih =>
    by_cases e : a = j
    · simp [FMap.get?, e]
    · simp [FMap.get?, e, ih (by simpa [Ne.symm e] using h)]
/-- Every queue of the slice is taken. -/
def taken : FMap Queue := (List.range 1024).map (fun i => (i, q3))
def n9 : State := { n2 with queues := taken }
theorem meets_queue_none_free : Settled n9 ∧ Ready (.qnew 4 1 7) n9
    ∧ (List.range 1024).find? (fun j => !(FMap.getD n9.queues (n9.ev.core / 64 * 1024 + j) Queue.reset).live) = none :=
  ⟨settled (by decide +kernel), ready (by decide +kernel), List.find?_eq_none.2 (fun j hj => by
    have : FMap.get? n9.queues (n9.ev.core / 64 * 1024 + j) = some q3 := by
      rw [show n9.queues = taken by simp only [n9], show n9.ev.core = 0 by simp only [n9]; rfl, Nat.zero_div, Nat.zero_mul, Nat.zero_add, taken]
      exact get?_const _ q3 j hj
    simp [FMap.getD, this, q3])⟩
theorem meets_queue_new_traps : Ready (.qnew 4 1 7) (regs [(1, spad)]) ∧ (regs [(1, spad)]).window spad ≠ .paged
    ∧ Ready (.qnew 4 1 7) (regs [(1, 0x4020)]) ∧ (regs [(1, 0x4020)]).window 0x4020 = .paged ∧ (0x4020 : W64).toNat % 64 ≠ 0
    ∧ (let s := on n2 (fun c => { c with pl := 0 })
      Ready (.qnew 4 1 7) s ∧ Settled s ∧ s.ringDenied 0x4000 (64 * 2 ^ 7) = some 0x4000) :=
  ⟨ready (by decide +kernel), by decide +kernel, ready (by decide +kernel), by decide +kernel, by decide +kernel, ready (by decide +kernel), settled (by decide +kernel), by decide +kernel⟩
theorem meets_queue_free_refused : let s := { n1 with queues := [(3, { q3 with owner := 8 })] }
    Ready (.qfree 20 16) s ∧ Settled s ∧ s.isRunQueue qh3 = false ∧ s.queueOf qh3 = some { q3 with owner := 8 } ∧ s.cur.ctxid ≠ 8
      ∧ s.cur.pl = 0 :=
  ⟨ready (by decide +kernel), settled (by decide +kernel), by decide +kernel, by decide +kernel, by decide +kernel, by decide +kernel⟩
theorem meets_queue_free_trap : let s := { n1 with ctxs := [(7, { ctx0 with rcb := { rcb0 with cq := List.replicate 16 qh3 } })] }
    Ready (.qfree 20 16) s ∧ Settled s ∧ s.isRunQueue qh3 = true := ⟨ready (by decide +kernel), settled (by decide +kernel), by decide +kernel⟩
theorem meets_queue_free : Ready (.qfree 20 16) n1 ∧ n1.isRunQueue qh3 = false ∧ n1.queueOf qh3 = some q3 ∧ n1.cur.ctxid = q3.owner
    ∧ q3.sleepers = [] ∧ q3.watch = [] ∧ Ready (.qfree 20 1) n1 ∧ n1.queueOf ((n1.rs 1).extractLsb' 0 32) = none :=
  ⟨ready (by decide +kernel), by decide +kernel, by decide +kernel, by decide +kernel, rfl, rfl, ready (by decide +kernel), by decide +kernel⟩
def watching (s : State) : State := on s (fun c => { c with watch := some (qh3, 9, 0) })
theorem meets_queue_watch : Ready (.qwatch 20 16 0 9) n1 ∧ n1.cur.watch = none ∧ 2 ≤ n1.cur.t.w.toNat
    ∧ Ready (.qwatch 20 1 0 9) n1 ∧ Ready (.qwatch 20 16 0 8) (watching n1) ∧ (watching n1).usableQueue qh3 = some q3 :=
  ⟨ready (by decide +kernel), rfl, by decide +kernel, ready (by decide +kernel), ready (by decide +kernel), by decide +kernel⟩
theorem meets_queue_watch_now : Ready (.qwatch 20 17 0 9) n1 ∧ Settled n1 ∧ n1.usableQueue qh4 = some { q3 with tail := 1 }
    ∧ n1.cur.watch = none ∧ 2 ≤ n1.cur.t.w.toNat := ⟨ready (by decide +kernel), settled (by decide +kernel), by decide +kernel, rfl, by decide +kernel⟩
theorem meets_queue_unwatch : Ready (.qwatch 20 16 1 0) (watching n1) ∧ (watching n1).usableQueue qh3 ≠ none
    ∧ Ready (.qwatch 20 16 1 0) n1 ∧ n1.usableQueue qh3 ≠ none :=
  ⟨ready (by decide +kernel), by decide +kernel, ready (by decide +kernel), by decide +kernel⟩

/-- The region lets each run draw twice. -/
def n3 : State := user { ctx0 with rcb := { rcb0 with drawlim := 2 } }
theorem meets_draw : Ready (.wdraw 4 1) n3 ∧ Settled n3 ∧ n3.cur.t.draws < n3.drawLimit n3.cur
    ∧ Ready (.wdraw 4 1) (on n3 (fun c => { c with txn := .drawn 12 })) :=
  ⟨ready (by decide +kernel), settled (by decide +kernel), by decide +kernel, ready (by decide +kernel)⟩
theorem meets_draw_starved : Ready (.wdraw 4 1) n1 ∧ n1.cur.uncleared = false ∧ n1.cur.txn = .none
    ∧ n1.drawLimit n1.cur ≤ n1.cur.t.draws := ⟨ready (by decide +kernel), by decide +kernel, rfl, by decide +kernel⟩
theorem meets_return : Ready (.wret 4 2) n1 ∧ Settled n1 ∧ Ready (.wret 4 1) n1 := ⟨ready (by decide +kernel), settled (by decide +kernel), ready (by decide +kernel)⟩
theorem meets_audit : Ready (.waudit 4 1) n1 ∧ n1.ctx? 7 = some ctx0 ∧ n1.cur.pl = 0 ∧ Ready (.waudit 4 1) n2 ∧ Settled n2
    ∧ n2.ctx? ((n2.rs 1).toNat % 2 ^ 32) = none ∧ n2.cur.pl = 2 := ⟨ready (by decide +kernel), by decide +kernel, rfl, ready (by decide +kernel), settled (by decide +kernel), by decide +kernel, rfl⟩
/-- A supervisor of no region that holds region 7. -/
def n4 : State := on n1 (fun c => { c with pl := 1, region := 0 })
theorem meets_audit_no_authority : Ready (.waudit 4 20) (on n4 (withRegs [(20, 7)])) ∧ Settled n4 ∧ n4.ctx? 7 = some ctx0
    ∧ n4.cur.authority ctx0 = false := ⟨ready (by decide +kernel), settled (by decide +kernel), by decide +kernel, by decide +kernel⟩

/-! ## Multicast, ends and barriers -/

/-- s1 names a list of one doubleword, which is 0: core 0. -/
def n5 : State := on n1 (withRegs [(1, spad)])
/-- The list loads, and core 0 is there. -/
def listOf0 (s : State) : Bool :=
  match s.retire.loadList spad 1 with
  | .ok (ms, u) => decide (ms = [0]) && decide (u.cur = s.retire.cur) && !u.absentEndpoint 0
  | .error _ => false
theorem meets_multicast : Ready (.mcst 1 2 4 0 0) n5 ∧ Idle n5 ∧ (n5.rs 1).toNat / 2 ^ 62 = 0
    ∧ listOf0 n5 = true ∧ 1 * 1 + 1 < n5.cur.t.w.toNat :=
  ⟨ready (by decide +kernel), idle (by decide +kernel) rfl, by decide +kernel, by decide +kernel, by decide +kernel⟩
theorem meets_multicast_listed : let s := on n5 (fun c => { c with listed := some [0] })
    Ready (.mcst 1 2 4 0 0) s ∧ Idle s ∧ s.cur.listed = some [0] ∧ (s.rs 1).toNat / 2 ^ 56 + 1 = 1 :=
  ⟨ready (by decide +kernel), idle (by decide +kernel) rfl, rfl, by decide +kernel⟩
theorem meets_end : Ready .endH n1 ∧ n1.cur.marked = false ∧ n1.cur.unacked = 0 ∧ n1.cur.ctxid ≠ 0 ∧ n1.isDet n1.cur = false
    ∧ n1.cur.leader = none ∧ n1.cur.members = [] ∧ Ready .endH n2 ∧ n2.cur.ctxid = 0 :=
  ⟨ready (by decide +kernel), rfl, by decide +kernel, by decide +kernel, by decide +kernel, rfl, rfl, ready (by decide +kernel), rfl⟩
/-- Core 1 waits at a barrier of cores 0 and 1 of the group. -/
def n6 : State := on ((user ctx0).modCore 1 (fun c => { c with ctxid := 7, txn := .barrier true 1 3 })) (withRegs [(1, 3), (2, 2)])
theorem meets_barrier : Ready (.rackb 4 1 1) n6 ∧ Settled n6 ∧ (n6.participants 1 (n6.rs 1)) = ([0, 1], 3)
    ∧ OthersArrived n6 [0, 1] 1 true 3 := ⟨ready (by decide +kernel), settled (by decide +kernel), by decide +kernel, by unfold OthersArrived; decide⟩
theorem meets_barrier_left_out : Ready (.bar 4 2 1) n6 ∧ n6.ev.core ∉ (n6.participants 1 (n6.rs 2)).1 := ⟨ready (by decide +kernel), by decide +kernel⟩
theorem meets_barrier_other : Ready (.bar 4 1 1) n6 ∧ Settled n6 ∧ 1 ∈ (n6.participants 1 (n6.rs 1)).1
    ∧ (n6.coreAt 1).barrier? 1 n6.cur.ctxid = some (true, 3) := ⟨ready (by decide +kernel), settled (by decide +kernel), by decide +kernel, by decide +kernel⟩
theorem meets_barrier_waits : Ready (.bar 4 1 2) n1 ∧ (n1.participants 2 3).1 = [0, 1] ∧ ∀ k ∈ [0, 1], k ≠ 0 → (n1.coreAt k).txn = .none :=
  ⟨ready (by decide +kernel), by decide +kernel, by decide +kernel⟩
theorem meets_barrier_done : Ready (.rackb 4 1 1) (on n6 (fun c => { c with txn := .barDone })) := ready (by decide +kernel)

/-! ## Futures, continuations and cordons -/

/-- A future cell's 32 bytes and a frame's fields, as memory. -/
def cellBytes (state count value frame : Nat) : List Byte :=
  toBytes 1 state ++ [0] ++ toBytes 2 0 ++ toBytes 4 count ++ toBytes 8 value ++ toBytes 8 0 ++ toBytes 8 frame
/-- Cell 0 is pending for the frame, cell 1 ready with 0x55, cell 2 failed, cell 3 free; frame 0 is the run's, with join 1 in `f1`, and
frame 1 is free. s13 is marked and names cell 1, s14 cell 0, s15 cell 2. -/
def f0 : State :=
  let x := { ctx0 with freeHead := spad + 0x1100 }
  let s := user x
  let s := (s.vPut (spad.toNat) (cellBytes 1 1 0 (spad.toNat + 0x1000) ++ cellBytes 2 2 0x55 0 ++ cellBytes 3 1 0 0)).getD s
  on s (fun c => withRegs [(4, 0x5400_0000_0000_4000), (15, spad + 64), (14, spad), (13, spad + 32)] { c with
    t := { c.t with fmask := 0xE00, frame := spad + 0x1000 } })
def f1 : State := f0.vSet (spad.toNat + 0x1010) 4 1
theorem meets_spawn : Ready (.spawn 4 2 13 0 1) f0 ∧ Settled f0 ∧ (f0.rs 4).toNat / 2 ^ 62 = 1 ∧ f0.destCheck (f0.rs 4) = none
    ∧ f0.futCheck 13 1 = none ∧ f0.frameBad = none ∧ f0.gated.needFrame = some f0.gated
    ∧ f0.gated.ctxOf f0.gated.cur = some { ctx0 with freeHead := spad + 0x1100 }
    ∧ f0.gated.freeCell { ctx0 with freeHead := spad + 0x1100 } = some (spad.toNat + 96) ∧ (f0.gated.takeFrame 7).isSome = true
    ∧ CanTake f0 0 :=
  ⟨ready (by decide +kernel), settled (by decide +kernel), by decide +kernel, by decide +kernel, by decide +kernel, by decide +kernel, rfl, by decide +kernel, by decide +kernel, by decide +kernel,
    by unfold CanTake; decide⟩
theorem meets_spawn_trap : Ready (.spawn 5 2 13 0 1) f0 ∧ Settled f0 ∧ (f0.rs 5).toNat / 2 ^ 62 ≠ 1 :=
  ⟨ready (by decide +kernel), settled (by decide +kernel), by decide +kernel⟩
/-- No frame is free. -/
def f2 : State := { f0 with ctxs := [(7, ctx0)] }
theorem meets_spawn_none : Ready (.spawn 4 2 13 0 1) f2 ∧ Settled f2 ∧ (f2.rs 4).toNat / 2 ^ 62 = 1 ∧ f2.destCheck (f2.rs 4) = none
    ∧ f2.futCheck 13 1 = none ∧ f2.frameBad = none ∧ f2.gated.needFrame = some f2.gated ∧ f2.gated.ctxOf f2.gated.cur = some ctx0
    ∧ (f2.gated.takeFrame 7).isSome = false :=
  ⟨ready (by decide +kernel), settled (by decide +kernel), by decide +kernel, by decide +kernel, by decide +kernel, by decide +kernel, rfl, by decide +kernel, by decide +kernel⟩
/-- The run has no frame either. -/
def f5 : State := onT f2 (fun t => { t with frame := 0 })
theorem meets_spawn_no_frame : Ready (.spawn 4 2 13 0 1) f5 ∧ Settled f5 ∧ f5.frameBad = none ∧ f5.destCheck (f5.rs 4) = none
    ∧ f5.futCheck 13 1 = none ∧ f5.gated.needFrame.isNone = true :=
  ⟨ready (by decide +kernel), settled (by decide +kernel), by decide +kernel, by decide +kernel, by decide +kernel, by decide +kernel⟩
theorem meets_poll : Ready (.fpoll 20 13) f0 ∧ f0.mayName 13 = true ∧ f0.futState (spad.toNat + 32) = 2
    ∧ Ready (.fpoll 20 14) f0 ∧ f0.mayName 14 = true ∧ f0.futState spad.toNat = 1 ∧ Ready (.fpoll 20 5) f0 ∧ f0.mayName 5 = false :=
  ⟨ready (by decide +kernel), by decide +kernel, by decide +kernel, ready (by decide +kernel), by decide +kernel, by decide +kernel, ready (by decide +kernel), by decide +kernel⟩
theorem meets_set : Ready (.fset 20 14 1) f0 ∧ Ready (.fset 20 13 1) f0 ∧ f0.futState (spad.toNat + 32) ≠ 1 ∧ Ready (.fset 20 5 1) f0 :=
  ⟨ready (by decide +kernel), ready (by decide +kernel), by decide +kernel, ready (by decide +kernel)⟩
theorem meets_reference : Ready (.fref 5 13 0) f0 ∧ f0.cur.t.marked 13 = true ∧ f0.futCount (spad.toNat + 32) ≠ 2 ^ 32 - 1
    ∧ Ready (.fref 5 20 1) f0 ∧ f0.cur.t.marked 20 = false :=
  ⟨ready (by decide +kernel), by decide +kernel, by decide +kernel, ready (by decide +kernel), by decide +kernel⟩
theorem meets_reference_full : let s := f0.vSet (spad.toNat + 36) 4 (2 ^ 32 - 1)
    Ready (.fref 5 13 1) s ∧ Settled s ∧ s.cur.t.marked 13 = true ∧ s.futCount (spad.toNat + 32) = 2 ^ 32 - 1 :=
  ⟨ready (by decide +kernel), settled (by decide +kernel), by decide +kernel, by decide +kernel⟩
theorem meets_adopt_trap : Ready (.fref 5 14 2) (f0.vSet spad.toNat 1 0) ∧ (f0.vSet spad.toNat 1 0).futState spad.toNat = 0 :=
  ⟨ready (by decide +kernel), by decide +kernel⟩
theorem meets_adopt : Ready (.fref 5 13 2) f0 ∧ Ctx.isCell { ctx0 with freeHead := spad + 0x1100 } (spad.toNat + 32) = true
    ∧ f0.futState (spad.toNat + 32) ≠ 0 := ⟨ready (by decide +kernel), by decide +kernel, by decide +kernel⟩
theorem meets_drop : Ready (.fdrop 13) f0 ∧ Ready (.fdrop 5) f0 ∧ f0.cur.t.marked 5 = false := ⟨ready (by decide +kernel), ready (by decide +kernel), by decide +kernel⟩
theorem meets_get : Ready (.fget 20 13 1) f0 ∧ f0.ownFut ≠ spad.toNat + 32 ∧ Ready (.fget 20 15 0) f0 ∧ f0.futState (spad.toNat + 64) = 3
    ∧ f0.ownFut ≠ spad.toNat + 64 ∧ Ready (.fget 20 5 0) f0 :=
  ⟨ready (by decide +kernel), by decide +kernel, ready (by decide +kernel), by decide +kernel, by decide +kernel, ready (by decide +kernel)⟩
theorem meets_get_leaves : Ready (.fget 20 14 0) f0 ∧ f0.ownFut ≠ spad.toNat ∧ f0.slaved = false ∧ f0.cur.lane = 0 ∧ f0.cur.leader = none
    ∧ f0.cur.members = [] ∧ popUpTo (f0.cur.t.finish.saveMask 0xFFFE false) 54 ≤ 16 :=
  ⟨ready (by decide +kernel), by decide +kernel, by decide +kernel, rfl, rfl, rfl, by decide +kernel⟩
theorem meets_sync : Ready (.sync 3 1) f0 ∧ f0.vNum (frJoin f0.cur.t.frame.toNat) 4 = 0 := ⟨ready (by decide +kernel), by decide +kernel⟩
theorem meets_sync_leaves : Ready (.sync 3 1) f1 ∧ Settled f1 ∧ f1.vNum (frJoin f1.cur.t.frame.toNat) 4 ≠ 0 ∧ f1.frameBad = none
    ∧ popUpTo (f1.cur.t.finish.saveMask 6 true) 54 ≤ 16 := ⟨ready (by decide +kernel), settled (by decide +kernel), by decide +kernel, by decide +kernel, by decide +kernel⟩
theorem meets_suspend_trap : Ready (.suspend 3 0x7FFF 0) f0 ∧ popUpTo (f0.cur.t.finish.saveMask (2 * 0x7FFF) false) 54 = 15
    ∧ Ready (.yield 0x7FFFF 0) f0 ∧ 16 < popUpTo (f0.cur.t.finish.saveMask (2 * 0x7FFFF) false) 54 :=
  ⟨ready (by decide +kernel), by decide +kernel, ready (by decide +kernel), by decide +kernel⟩
/-- Core 1 is idle in the region. -/
def f3 : State := f0.modCore 1 (fun c => { c with run := .idle, ctxid := 7 })
theorem meets_cordon : Ready (.cordon 20 2) f3 ∧ Settled f3 ∧ f3.followers 0 1 = [1] ∧ 1 < f3.cur.t.w.toNat ∧ f3.cur.leader = none ∧ f3.cur.members = []
    ∧ Ready (.cordon 20 2) f0 ∧ f0.followers 0 1 = [] := ⟨ready (by decide +kernel), settled (by decide +kernel), by decide +kernel, by decide +kernel, rfl, rfl, ready (by decide +kernel), by decide +kernel⟩
/-- Core 0 leads core 1. -/
def f4 : State := on (f3.modCore 1 (fun c => { c with run := .running, leader := some 0, lane := 1, cordsz := 2, t := { c.t with w := 1 } }))
  (fun c => { c with members := [1], cordsz := 2 })
theorem meets_uncordon : Ready .uncordon f4 ∧ f4.ev.core ∉ f4.cur.members ∧ (∀ m ∈ f4.cur.members, (f4.coreAt m).replay = []
    ∧ (f4.coreAt m).uncleared = false ∧ (f4.coreAt m).unacked = 0 ∧ (f4.coreAt m).t.div = none ∧ (f4.coreAt m).lane ≠ 0) ∧ Ready .uncordon f0 ∧ f0.cur.members = [] :=
  ⟨ready (by decide +kernel), by decide +kernel, by decide +kernel, ready (by decide +kernel), rfl⟩
theorem meets_quantum_end : Ready .qend f0 := ready (by decide +kernel)

/-! ## Streams, saved vector state and engines -/

/-- What a load gives meets a test. -/
def givesBytes (x : Sync) (f : List Byte → State → Bool) : Bool := match x with | .ok bs s => f bs s | .stop _ => false
def stored (x : Except Res State) : Bool := match x with | .ok _ => true | .error _ => false
/-- A shape record: two strips of the scratchpad, 64 bytes apart; a read or a write stream of it. -/
def shapeBytes (dmin : Nat) : List Byte :=
  toBytes 8 (spad.toNat + 0x2000) ++ toBytes 8 0x1_0001_0001_0002 ++ toBytes 3 64 ++ List.replicate 9 0 ++ toBytes 4 (dmin + 0x200)
def shape0 : BitVec 256 := BitVec.ofNat 256 (ofBytes (shapeBytes 1))
def rd0 : Stream :=
  { record := spad, shape := shape0, write := false, pos := 0, depth := 1, quiet := 0, waited := false, fetched := [], parked := none,
    tags := [] }
def wr0 : Stream := { rd0 with write := true, depth := 0 }
def strip (t : Option (BitVec 8)) : Strip := { bytes := List.replicate 64 7, trap := t }
/-- s4 names the record in memory, and s5 one with a depth of 0. -/
def r0 : State :=
  let s := (State.reset.vPut spad.toNat (shapeBytes 1 ++ shapeBytes 0)).getD State.reset
  on s (withRegs [(4, spad), (5, spad + 32)])
/-- A stream is bound to v28. -/
def bound (q : Stream) : State := onT r0 (fun t => { t with streams := t.streams.set 0 (some q) })
theorem meets_bind : Ready (.sbind 0 4 0) r0 ∧ Idle r0
    ∧ givesBytes (r0.retire.syncLoad spad 32 32) (fun bs _ => decide (bs = shapeBytes 1)) = true ∧ r0.shapeOk rd0 = true
    ∧ r0.cur.streamOf 28 = none ∧ Ready (.sbind 0 4 1) r0 ∧ r0.shapeOk wr0 = true :=
  ⟨ready (by decide +kernel), idle (by decide +kernel) rfl, by decide +kernel, by decide +kernel, by decide +kernel, ready (by decide +kernel), by decide +kernel⟩
theorem meets_bind_trap : Ready (.sbind 0 5 0) r0 ∧ givesBytes (r0.retire.syncLoad (spad + 32) 32 32) (fun bs _ =>
    !r0.shapeOk { rd0 with record := spad + 32, shape := BitVec.ofNat 256 (ofBytes bs) }) = true
    ∧ Ready (.sbind 0 4 0) (bound rd0) ∧ Idle (bound rd0) ∧ ((bound rd0).cur.streamOf 28).isSome = true :=
  ⟨ready (by decide +kernel), by decide +kernel, ready (by decide +kernel), idle (by decide +kernel) rfl, by decide +kernel⟩
def pushed (s : State) : State := on s (fun c => { c with mem := [store1] })
theorem meets_unbind : Ready (.sfree 4 0) r0 ∧ Ready (.sfree 4 0) (bound rd0) ∧ (bound rd0).cur.streamOf 28 = some rd0
    ∧ (bound rd0).cur.mem = [] ∧ (bound rd0).cur.pending 28 = 0 ∧ Ready (.sfree 4 0) (pushed (bound { wr0 with tags := [3] }))
    ∧ store1 ∈ (pushed (bound { wr0 with tags := [3] })).cur.mem ∧ store1.tag ∈ [3] :=
  ⟨ready (by decide +kernel), ready (by decide +kernel), by decide +kernel, rfl, by decide +kernel, ready (by decide +kernel), by decide +kernel, by decide +kernel⟩
theorem meets_pop_trap : let s := bound { rd0 with pos := 2 }
    (vecSpec s (.vadd 3 28 2 0 0)).isSome = true ∧ Ready (.vadd 3 28 2 0 0) s ∧ s.cur.popsOf (.vadd 3 28 2 0 0) = [28]
    ∧ s.cur.pushOf (.vadd 3 28 2 0 0) = none ∧ rd0.length = 2 := ⟨by decide +kernel, ready (by decide +kernel), by decide +kernel, by decide +kernel, by decide +kernel⟩
theorem meets_pop_waits : let s := bound rd0
    (vecSpec s (.vadd 3 28 2 0 0)).isSome = true ∧ Ready (.vadd 3 28 2 0 0) s ∧ s.cur.streamOf 28 = some rd0 ∧ rd0.fetched = []
    ∧ rd0.pos < rd0.length := ⟨by decide +kernel, ready (by decide +kernel), by decide +kernel, rfl, by decide +kernel⟩
theorem meets_pop_fault : let s := bound { rd0 with fetched := [strip (some cPageFault)] }
    Ready (.vst 28 4 0 .plain .dev .default) s ∧ s.cur.popsOf (.vst 28 4 0 .plain .dev .default) = [28]
    ∧ s.cur.pushOf (.vst 28 4 0 .plain .dev .default) = none := ⟨ready (by decide +kernel), by decide +kernel, by decide +kernel⟩
theorem meets_pop : let s := bound { rd0 with fetched := [strip none] }
    Ready (.vst 28 4 0 .plain .dev .default) s ∧ s.cur.popsOf (.vst 28 4 0 .plain .dev .default) = [28]
    ∧ Goes s .vstore spad 64 ∧ (∀ g off, s.window spad ≠ .gen g off) ∧ s.srFault 0 = none ∧ s.fmtAt spad = 0
    ∧ RoomForStore s :=
  ⟨ready (by decide +kernel), by decide +kernel, ⟨by decide +kernel, _, rfl⟩, notGen (by decide +kernel), by decide +kernel, by decide +kernel, by unfold RoomForStore; decide +kernel⟩
theorem meets_push : let s := bound wr0
    (vecSpec s (.vadd 28 1 2 0 0)).isSome = true ∧ Ready (.vadd 28 1 2 0 0) s ∧ s.cur.popsOf (.vadd 28 1 2 0 0) = []
    ∧ s.cur.pushOf (.vadd 28 1 2 0 0) = some 28 ∧ s.cur.streamOf 28 = some wr0 ∧ wr0.pos + s.cur.pending 28 < wr0.length
    ∧ RoomForStore s ∧ ¬ RoomForStore (full s) ∧ Ready (.vadd 28 1 2 0 0) (full s) :=
  ⟨by decide +kernel, ready (by decide +kernel), by decide +kernel, by decide +kernel, by decide +kernel, by decide +kernel, by unfold RoomForStore; decide +kernel,
    by unfold RoomForStore; decide +kernel, ready (by decide +kernel)⟩
/-- A result for v28 that is visible and not yet stored. -/
def push1 : Push :=
  { reg := 28, val := 7, issued := 0, visible := some 0, tag := 0, pc := spad, before := Thread.reset, instret := 0 }
def kept : State := on (bound wr0) (fun c => { c with pushes := [push1] })
theorem meets_landing : (kept.coreAt 0).streamOf 28 = some wr0 ∧ push1 ∈ (kept.coreAt 0).pushes
    ∧ (kept.atPush 0 push1).accCheck (kept.atPush 0 push1).cur .vstore (wr0.addr 0) 64 = none
    ∧ (∀ g off, (kept.atPush 0 push1).window (wr0.addr 0) ≠ .gen g off) ∧ kept.fmtAt (wr0.addr 0) = 0
    ∧ (kept.atPush 0 push1).srFault ((kept.atPush 0 push1).encodeAt (wr0.addr 0) 7).draws = none ∧ RoomForStore (kept.atPush 0 push1) :=
  ⟨by decide +kernel, by decide +kernel, by decide +kernel, notGen (by decide +kernel), by decide +kernel, by decide +kernel, by unfold RoomForStore; decide +kernel⟩
theorem meets_unbind_pending : Ready (.sfree 4 0) kept ∧ kept.cur.streamOf 28 = some wr0 ∧ 0 < kept.cur.pending 28 :=
  ⟨ready (by decide +kernel), by decide +kernel, by decide +kernel⟩
theorem meets_pop_and_push : let s := bound wr0
    (vecSpec s (.vadd 28 28 2 0 0)).isSome = true ∧ Ready (.vadd 28 28 2 0 0) s ∧ 28 ∈ s.cur.popsOf (.vadd 28 28 2 0 0)
    ∧ s.cur.pushOf (.vadd 28 28 2 0 0) = some 28 := ⟨by decide +kernel, ready (by decide +kernel), by decide +kernel, by decide +kernel⟩
theorem meets_push_trap : let s := bound rd0
    (vecSpec s (.vadd 28 1 2 0 0)).isSome = true ∧ Ready (.vadd 28 1 2 0 0) s ∧ s.cur.popsOf (.vadd 28 1 2 0 0) = []
    ∧ s.cur.pushOf (.vadd 28 1 2 0 0) = some 28 ∧ rd0.write = false := ⟨by decide +kernel, ready (by decide +kernel), by decide +kernel, by decide +kernel, rfl⟩
/-- Lines that go to a generator window change nothing. -/
theorem sinkStores {s : State} {a : W64} {bs : List Byte} : ∀ n, (∀ k < n, s.accCheck s.cur .store (a + BitVec.ofNat 64 (64 * k)) 64 = none
    ∧ s.window (a + BitVec.ofNat 64 (64 * k)) = .gen 0 (64 * k)) → s.storeLines a bs n = .ok s
  | 0, _ => rfl
  | n + 1, h => by
    have := sinkStores (bs := bs) n (fun k hk => h k (by omega))
    simp [State.storeLines, this, State.syncStore, (h n (by omega)).1, (h n (by omega)).2]
theorem meets_save : Ready (.vsave 7 5) (sink p1) ∧ (sink p1).cur.uncleared = false ∧ (sink p1).isDet (sink p1).cur = false
    ∧ (sink p1).gated.readyToStore gen0 1024 = true
    ∧ (sink p1).gated.storeLines gen0 (blockBytes (sink p1).cur.ctxid 0) 16 = .ok (sink p1).gated ∧ (sink p1).rs 5 = gen0 :=
  ⟨ready (by decide +kernel), by decide +kernel, by decide +kernel, by decide +kernel, sinkStores 16 (by decide +kernel), by decide +kernel⟩
/-- An earlier acquire has not been performed. -/
theorem meets_save_waits : let s := on p1 (fun c => { c with mem := [{ load1 with ord := .acq, cleared := true }] })
    Ready (.vsave 7 4) s ∧ s.cur.uncleared = false ∧ s.isDet s.cur = false ∧ s.gated.readyToStore spad 1024 = false :=
  ⟨ready (by decide +kernel), by decide +kernel, by decide +kernel, by decide +kernel⟩
theorem meets_restore_unknown : Ready (.vrest 7 4) p1
    ∧ (match p1.retire.loadLines spad 16 with | .ok _ => true | .error _ => false) = true ∧ p1.vblocks = [] :=
  ⟨ready (by decide +kernel), by decide +kernel, rfl⟩

/-- The block of a context's `vsave`, as it stands in memory. -/
def blk : List Byte := blockBytes 0 0
def key0 : Nat := keyOf spSpad 0x1000
def saved0 : VBlock := { ctx := 0, held := [], streams := Vector.replicate 4 none, restored := false, by_ := (0, 0) }
def vr : State := { p1 with mem := (List.range' key0 1024).zip blk, vblocks := [(0, saved0)] }

theorem read_zip (K : Nat) (bs : List Byte) :
    (List.range' K bs.length).map (Memory.read ((List.range' K bs.length).zip bs)) = bs := by
  induction bs generalizing K with
  | nil => rfl
  | cons b bs ih =>
    simp only [List.length_cons, List.range'_succ, List.map_cons, List.zip_cons_cons]
    refine congr (congrArg _ ?_) ?_
    · simp [Memory.read, FMap.getD, FMap.get?]
    · refine Eq.trans (List.map_congr_left fun k hk => ?_) (ih (K + 1))
      have : k ≠ K := by have := List.mem_range'_1.mp hk; omega
      simp [Memory.read, FMap.getD, FMap.get?, Ne.symm this]
theorem blockLength : blk.length = 1024 := by
  rw [blk, blockBytes, List.length_flatten, List.map_map]
  have (x : Nat) (l : List Nat) (f : Nat → List Byte) (h : ∀ j, (f j).length = x) : (l.map (List.length ∘ f)).sum = x * l.length := by
    induction l with
    | nil => rfl
    | cons _ _ ih => simp [h, ih, Nat.mul_add, Nat.add_comm]
  rw [this 8 _ _ (fun j => toBytes_length _ _), List.length_range]
/-- A line of the own scratchpad is read where it lies. -/
theorem directLoad {s : State} {a : W64} {k : Nat} (h : (s.accCheck s.cur .load a 64).isNone = true)
    (w : (match s.window a with | .spad _ _ _ _ => true | _ => false) = true) (b : s.bad = [])
    (l : (s.locsOf a 64).map s.directKey = List.range' k 64) (d : (s.locsOf a 64).all isDirect = true)
    (hb : (s.locsOf a 64).any s.blockedPlace = false) (hc : s.ctxOf s.cur = none) (hv : s.ev.val = 0) (hs : s.stale = [])
    (hq : s.cur.silent = none) (hl : s.linksAfter (s.locsOf a 64) true = s.links) :
    s.syncLoad a 64 64 = .ok ((List.range' k 64).map (Memory.read s.mem)) s := by
  have hd : (s.locsOf a 64).filter isDirect = s.locsOf a 64 := List.filter_eq_self.mpr (by simpa using d)
  have hn : (s.locsOf a 64).filter (fun l => !isDirect l) = [] := by simpa using d
  have he : (s.locsOf a 64).any (fun l => ([] : List Nat).contains (s.directKey l / 4 * 4)) = false := by simp
  have hm : s.syncMove a = .stay s := by
    have x : s.otherHome s.ev.core a = none := by unfold State.otherHome; rw [show s.coreAt s.ev.core = s.cur from rfl, hc]
    have y : s.walkTarget s.ev.core a none = none := by unfold State.walkTarget; simp only [show s.coreAt s.ev.core = s.cur from rfl, hc]
    simp only [State.syncMove, State.move, x, y]
  have hz : ({ s.see s.curThread (s.locsOf a 64) none with links := s.links } : State).answered s.ev.core a = s := by
    have : s.see s.curThread (s.locsOf a 64) none = s := by simp [State.see, hs]; rw [← hs]
    rw [this]
    show (if (s.cur.silent.map (·.2)) = some a then _ else s) = s
    rw [hq]; rfl
  have ho : s.offNow (s.locsOf a 64) = false := by simp [State.offNow, hb, hv]
  simp only [Option.isNone_iff_eq_none] at h
  unfold State.syncLoad
  simp only [h, hm, ho, hl]
  split at w
  · rename_i e
    simp only [e, State.readLocs, hd, hn, b, List.map_nil, State.readLineBytes, List.nil_append, Bool.false_eq_true, if_false, he, hz]
    simp only [← l, List.map_map]; rfl
  · cases w
theorem directLoads {s : State} {a : W64} {k : Nat} (h : ∀ j < 16, s.syncLoad (a + BitVec.ofNat 64 (64 * j)) 64 64
    = .ok ((List.range' (k + 64 * j) 64).map (Memory.read s.mem)) s) :
    ∀ n ≤ 16, s.loadLines a n = .ok ((List.range' k (64 * n)).map (Memory.read s.mem), s)
  | 0, _ => rfl
  | n + 1, hn => by
    simp only [State.loadLines, directLoads h n (by omega), h n (by omega)]
    rw [← List.map_append, show 64 * (n + 1) = 64 * n + 64 by omega, List.range'_append_1]
theorem meets_restore : Ready (.vrest 7 4) vr ∧ vr.retire.loadLines spad 16 = .ok (blk, vr.retire)
    ∧ vr.vblocks.find? (fun e => decide (blockBytes e.2.ctx e.1 = blk)) = some (0, saved0) ∧ saved0.restored = false
    ∧ saved0.ctx = vr.cur.ctxid ∧ vr.cur.replay = [] := by
  refine ⟨ready (by decide +kernel), ?_, by simp [vr, blk, saved0], rfl, by decide +kernel, by decide +kernel⟩
  rw [directLoads (k := key0) (fun j hj => ?_) 16 (by decide +kernel)]
  · have := read_zip key0 blk
    rw [blockLength] at this
    exact congrArg (fun x => Except.ok (x, vr.retire)) this
  · have h : ∀ j < 16, ((vr.retire.accCheck vr.retire.cur .load (spad + BitVec.ofNat 64 (64 * j)) 64).isNone
        && (match vr.retire.window (spad + BitVec.ofNat 64 (64 * j)) with | .spad _ _ _ _ => true | _ => false)
        && decide ((vr.retire.locsOf (spad + BitVec.ofNat 64 (64 * j)) 64).map vr.retire.directKey = List.range' (key0 + 64 * j) 64)
        && (vr.retire.locsOf (spad + BitVec.ofNat 64 (64 * j)) 64).all isDirect
        && !(vr.retire.locsOf (spad + BitVec.ofNat 64 (64 * j)) 64).any vr.retire.blockedPlace
        && decide (vr.retire.linksAfter (vr.retire.locsOf (spad + BitVec.ofNat 64 (64 * j)) 64) true = vr.retire.links)) = true := by decide +kernel
    have := h j hj
    simp only [Bool.and_eq_true, decide_eq_true_eq, Bool.not_eq_true'] at this
    exact directLoad this.1.1.1.1.1 this.1.1.1.1.2 rfl this.1.1.1.2 this.1.1.2 this.1.2 (by decide +kernel) rfl rfl (by decide +kernel) this.2

theorem meets_copy : Ready (.copy 16 17 2 1) n1 ∧ Settled n1 ∧ n1.cur.copyq.length < 2 ∧ CanTake n1 1
    ∧ Ready (.copy 16 17 2 0) n2 ∧ n2.cur.ctxid = 0 := ⟨ready (by decide +kernel), settled (by decide +kernel), by decide +kernel, by unfold CanTake; decide, ready (by decide +kernel), rfl⟩
def cmd0 : CopyCmd :=
  { desc := 0, comb := none, tag := 0, level := 0, ctx := 7, vint := 5, weight := 1, handle := none, ticket := none, validated := false,
    count := 0, status := none, held := [], waiting := false, parked := none, gens := Vector.replicate 8 0, buf := [], put := 0,
    at_ := 0, since := 0 }
def engFull (s : State) : State := on s (fun c => { c with copyq := [cmd0, cmd0] })
theorem meets_copy_checked : Ready (.copys 6 2 0) p1 ∧ Settled p1 ∧ p1.retire.accCheck p1.retire.cur .load hole 64 = some cBadAddress
    ∧ Ready (.copyx 4 2 0 0) (on p1 (withRegs [(4, spad + 32)])) ∧ p1.retire.accCheck p1.retire.cur .load (spad + 32) 64 = some cAlign :=
  ⟨ready (by decide +kernel), settled (by decide +kernel), by decide +kernel, ready (by decide +kernel), by decide +kernel⟩
theorem meets_copy_waits : Ready (.copy 16 17 2 1) (engFull n1) ∧ Settled (engFull n1) ∧ 2 ≤ (engFull n1).cur.copyq.length :=
  ⟨ready (by decide +kernel), settled (by decide +kernel), by decide +kernel⟩
theorem meets_copy_described : Ready (.copyx 1 2 1 1) n5 ∧ Settled n5 ∧ (n5.rs 1).toNat % 64 = 0
    ∧ givesBytes (n5.retire.syncLoad spad 64 64) (fun _ v => givesBytes (v.syncLoad (spad + 64) 64 64) (fun _ _ => true)) = true
    ∧ Ready (.copys 3 2 1) (on n5 (withRegs [(3, spad + 32)])) ∧ (spad + 32).toNat % 64 ≠ 0 :=
  ⟨ready (by decide +kernel), settled (by decide +kernel), by decide +kernel, by decide +kernel, ready (by decide +kernel), by decide +kernel⟩
/-- s12 names a task's record, which is all 0: no dependences. -/
def tt : State := on f0 (withRegs [(12, spad + 0x4000)])
def xt : Ctx := { ctx0 with freeHead := spad + 0x1100 }
theorem meets_task : Ready (.ttpost 5 12 2 0) tt ∧ Settled tt
    ∧ givesBytes (tt.gated.syncLoad (spad + 0x4000) 64 128) (fun lo v => givesBytes (v.syncLoad (spad + 0x4040) 64 64) (fun hi u =>
        decide (lo = List.replicate 64 0) && decide (hi = List.replicate 64 0) && decide (u.freeCell xt = some (spad.toNat + 96)))) = true
    ∧ tt.ctxOf tt.cur = some xt ∧ (tt.tasks 0).length < 256 ∧ CanTake tt 1 :=
  ⟨ready (by decide +kernel), settled (by decide +kernel), by decide +kernel, by decide +kernel, by decide +kernel, by unfold CanTake; decide⟩
/-- No cell is free. -/
def tu : State := { tt with ctxs := [(7, { xt with rcb := { rcb0 with fheapn := 3 } })] }
theorem meets_task_none : Ready (.ttpost 5 12 2 0) tu ∧ Settled tu
    ∧ givesBytes (tu.gated.syncLoad (spad + 0x4000) 64 128) (fun _ v => givesBytes (v.syncLoad (spad + 0x4040) 64 64) (fun _ u =>
        decide (u.freeCell { xt with rcb := { rcb0 with fheapn := 3 } } = none))) = true :=
  ⟨ready (by decide +kernel), settled (by decide +kernel), by decide +kernel⟩
/-- A part without a cask, and one with a cask on one die. -/
def noCask : State := { State.reset with caps := 0x1 }
def oneCask : State := { State.reset with caps := 0x2 }
theorem meets_cask_absent : Ready (.caskopen 1) noCask ∧ noCask.hasCask = false ∧ Ready (.caskseal 2) oneCask ∧ oneCask.hasCask = true
    ∧ oneCask.die1 = false := ⟨ready (by decide +kernel), by decide +kernel, ready (by decide +kernel), by decide +kernel, by decide +kernel⟩
theorem meets_cask : State.reset.hasCask = true ∧ State.reset.die1 = true ∧ State.reset.cur.uncleared = false
    ∧ Ready (.caskopen 3) State.reset ∧ Ready (.caskseal 3) State.reset ∧ State.reset.cores = [] :=
  ⟨by decide +kernel, by decide +kernel, by decide +kernel, ready (by decide +kernel), ready (by decide +kernel), rfl⟩
/-- Core 1 has an accepted store to the cask of die 0. -/
def cx : State := State.reset.modCore 1 (fun c => { c with mem := [{ store1 with addr := 0x00FD_0000_0000_0000, cleared := true }] })
theorem meets_cask_waits : Ready (.caskseal 1) cx ∧ cx.cur.txn = .none ∧ cx.cur.uncleared = false
    ∧ ∃ x ∈ (cx.coreAt 1).mem, x.caskDie cx = some 0 := ⟨ready (by decide +kernel), rfl, by decide +kernel, by decide +kernel⟩
theorem meets_cask_goes_on : let s := on State.reset (fun c => { c with txn := .answered 1 })
    Ready (.caskseal 1) s ∧ s.hasCask = true ∧ s.cur.txn = .answered 1 ∧ s.cur.mem = [] := ⟨ready (by decide +kernel), by decide +kernel, rfl, rfl⟩
/-- Machine level, with the line of 0x4000 in the caches. -/
def pf : State :=
  { n2 with cache := [(0x100, { pa := 0x8000, data := 5, dirty := false, hint := .default, l1 := none, bad := 0 })] }
theorem meets_prefetch : Ready (.pref 1 0 .plain .dev .stream) pf ∧ pf.accCheck pf.cur .load (pf.rs 1) 1 = none
    ∧ pf.window (pf.rs 1) = .paged ∧ (match pf.look 0x4000 with | .line _ _ => true | _ => false) = true :=
  ⟨ready (by decide +kernel), by decide +kernel, by decide +kernel, by decide +kernel⟩
theorem meets_prefetch_cask : let s := regs [(1, 0x00FD_0000_0000_0000)]
    Ready (.pref 1 0 .plain .dev .default) s ∧ s.accCheck s.cur .load (s.rs 1) 1 = none
      ∧ (match s.look (s.rs 1).toNat with | .line _ _ => true | _ => false) = true ∧ s.window (s.rs 1) = .cask 0 0 :=
  ⟨ready (by decide +kernel), by decide +kernel, by decide +kernel, by decide +kernel⟩
theorem meets_prefetch_absent : let s := { noCask with cores := (regs [(1, 0x00FD_0000_0000_0000)]).cores }
    Ready (.pref 1 0 .plain .dev .default) s ∧ s.accCheck s.cur .load (s.rs 1) 1 = some cUnitAbsent := ⟨ready (by decide +kernel), by decide +kernel⟩

/-! ## Waits, generators and migrations -/

theorem meets_waita : Ready (.waita 7 4 0 .acq .dev .default) p1 ∧ p1.cur.txn = .none ∧ p1.accCheck p1.cur .waita spad 8 = none
    ∧ Ready (.waita 7 4 0 .plain .dev .default) (on p1 (fun c => { c with txn := .waited 5 }))
    ∧ Ready (.waita 7 4 0 .plain .dev .default) (on p1 (fun c => { c with txn := .waita 3 true }))
    ∧ Ready (.waita 7 6 0 .plain .dev .default) p1 ∧ p1.accCheck p1.cur .waita hole 8 = some cBadAddress :=
  ⟨ready (by decide +kernel), rfl, by decide +kernel, ready (by decide +kernel), ready (by decide +kernel), ready (by decide +kernel), by decide +kernel⟩
/-- A region with a generator block, or without one; the descriptor at s1 is all 0, and the one at s2 has no such function. -/
def gx (blk : W64) : State :=
  let s := user { ctx0 with rcb := { rcb0 with genblk := blk } }
  on ((s.vSet (spad.toNat + 64) 1 9)) (withRegs [(1, spad), (2, spad + 64)])
theorem meets_genset_checked : Ready (.genset 7 6 3) p1 ∧ Settled p1 ∧ p1.retire.accCheck p1.retire.cur .load hole 64 = some cBadAddress :=
  ⟨ready (by decide +kernel), settled (by decide +kernel), by decide +kernel⟩
theorem meets_genset : Ready (.genset 7 1 3) (gx (spad + 0x800)) ∧ Settled (gx (spad + 0x800)) ∧ Stays (gx (spad + 0x800)) spad
    ∧ givesBytes ((gx (spad + 0x800)).retire.syncLoad spad 64 64) (fun bs u => genValid (BitVec.ofNat 512 (ofBytes bs))
        && givesBytes (u.syncStore (spad + 0x800 + 64 * 3) bs 64) (fun _ _ => true)) = true :=
  ⟨ready (by decide +kernel), settled (by decide +kernel), ⟨_, rfl⟩, by decide +kernel⟩
theorem meets_genset_no_block : Ready (.genset 7 1 3) (gx 0) ∧ Settled (gx 0)
    ∧ givesBytes ((gx 0).retire.syncLoad spad 64 64) (fun bs _ => genValid (BitVec.ofNat 512 (ofBytes bs))) = true :=
  ⟨ready (by decide +kernel), settled (by decide +kernel), by decide +kernel⟩
theorem meets_genset_invalid : Ready (.genset 7 2 3) (gx 0)
    ∧ givesBytes ((gx 0).retire.syncLoad (spad + 64) 64 64) (fun bs _ => !genValid (BitVec.ofNat 512 (ofBytes bs))) = true
    ∧ Ready (.genset 7 4 3) p1 ∧ p1.ctxOf p1.cur = none ∧ givesBytes (p1.retire.syncLoad spad 64 64) (fun _ _ => true) = true :=
  ⟨ready (by decide +kernel), by decide +kernel, ready (by decide +kernel), by decide +kernel, by decide +kernel⟩
def answersStatus (x : Except Nat Nat) (st : Nat) : Bool := match x with | .error n => decide (n = st) | .ok _ => false
def answersCore (x : Except Nat Nat) (m : Nat) : Bool := match x with | .ok n => decide (n = m) | .error _ => false
theorem meets_migr : let s := on f3 (withRegs [(16, 1)])
    Ready (.migr 20 16 1) s ∧ s.cur.unacked = 0 ∧ s.cur.t.div = none ∧ answersCore (s.retire.migrTarget 1 (s.rs 16)) 1 = true ∧ s.cur.marked = false :=
  ⟨ready (by decide +kernel), by decide +kernel, rfl, by decide +kernel, rfl⟩
theorem meets_migr_stays : Ready (.migr 20 13 1) f0 ∧ answersStatus (f0.retire.migrTarget 1 (f0.rs 16)) 1 = true
    ∧ Ready (.migr 20 16 0) f0 := ⟨ready (by decide +kernel), by decide +kernel, ready (by decide +kernel)⟩

/-! ## Idle, protection and contexts -/

def ms : State := regs [(1, 7), (2, spad), (3, 0x0000_0002_0005_003F), (4, 8)]
theorem meets_idle : Ready .idle ms ∧ ms.cur.uncleared = false ∧ ms.cur.preempt = false ∧ ms.cur.events = []
    ∧ Ready .idle (on ms (fun c => { c with preempt := true })) := ⟨ready (by decide +kernel), by decide +kernel, rfl, rfl, ready (by decide +kernel)⟩
theorem meets_protection : Ready (.plbw 1 2 3) ms ∧ (ms.rs 2).toNat < 2 ^ 56 ∧ (ms.rs 2).toNat / 8192 * 8192 + 2 * 8192 ≤ 2 ^ 56
    ∧ Ready (.plbw 1 2 3) (on ms (withRegs [(2, 2 ^ 56 - 8192)])) ∧ 2 ^ 56 < (2 ^ 56 - 8192) / 8192 * 8192 + 2 * 8192
    ∧ Ready (.plbinv 20 2 2) ms :=
  ⟨ready (by decide +kernel), by decide +kernel, by decide +kernel, ready (by decide +kernel), by decide +kernel, ready (by decide +kernel)⟩
/-- A supervisor that governs region 7 with a context, or governs nothing. -/
def withCtx (x : Ctx) : State := { ms with ctxs := [(7, x)] }
def astray (s : State) : State := on s (fun c => { c with pl := 1, region := 0 })
def calm : Ctx := { ctx0 with H := 256, yreq := some 0 }
theorem meets_context_status : Ready (.preempt 20 4 0) ms ∧ ms.ctx? 8 = none ∧ Ready (.preempt 20 1 0) (astray (withCtx ctx0))
    ∧ (astray (withCtx ctx0)).ctx? 7 = some ctx0 ∧ (astray (withCtx ctx0)).cur.authority ctx0 = false
    ∧ Ready (.wvint 1) (astray (withCtx ctx0)) ∧ Ready (.wvint 4) ms ∧ Ready (.release 1) (astray (withCtx ctx0)) ∧ Ready (.release 4) ms :=
  ⟨ready (by decide +kernel), by decide +kernel, ready (by decide +kernel), by decide +kernel, by decide +kernel, ready (by decide +kernel), ready (by decide +kernel), ready (by decide +kernel), ready (by decide +kernel)⟩
theorem meets_preempt : Ready (.preempt 20 1 0) (withCtx ctx0) ∧ Governs (withCtx ctx0) 7 ctx0 ∧ ctx0.yreq = none
    ∧ Ready (.preempt 20 1 1) (withCtx calm) ∧ Governs (withCtx calm) 7 calm ∧ calm.yreq.isSome = true
    ∧ Ready (.preempt 20 1 1) (withCtx ctx0) :=
  ⟨ready (by decide +kernel), ⟨by decide +kernel, by decide +kernel⟩, rfl, ready (by decide +kernel), ⟨by decide +kernel, by decide +kernel⟩, rfl, ready (by decide +kernel)⟩
theorem meets_write_off : Ready (.wvint 1) (withCtx calm) ∧ Governs (withCtx calm) 7 calm ∧ (withCtx calm).retire.someRuns 7 = false
    ∧ Ready (.wvint 1) (withCtx ctx0) ∧ Governs (withCtx ctx0) 7 ctx0 ∧ ctx0.yreq = none :=
  ⟨ready (by decide +kernel), ⟨by decide +kernel, by decide +kernel⟩, by decide +kernel, ready (by decide +kernel), ⟨by decide +kernel, by decide +kernel⟩, rfl⟩
theorem meets_save_context : Ready (.ctxsave 1 2) (withCtx calm) ∧ (withCtx calm).absentUnit spad = false
    ∧ Governs (withCtx calm) 7 calm ∧ (withCtx calm).accCheck (withCtx calm).cur .store spad 256 = none
    ∧ stored ((withCtx calm).retire.storeLines spad (saveBlock 7 calm) 4) = true ∧ calm.H = calm.total
    ∧ Ready (.ctxsave 1 2) (withCtx ctx0) ∧ ctx0.H ≠ ctx0.total ∧ Ready (.ctxsave 1 3) (withCtx calm)
    ∧ (withCtx calm).absentUnit ((withCtx calm).rs 3) = false
    ∧ (withCtx calm).accCheck (withCtx calm).cur .store ((withCtx calm).rs 3) 256 ≠ none :=
  ⟨ready (by decide +kernel), by decide +kernel, ⟨by decide +kernel, by decide +kernel⟩, by decide +kernel, by decide +kernel, by decide +kernel, ready (by decide +kernel), by decide +kernel, ready (by decide +kernel),
    by decide +kernel, by decide +kernel⟩
theorem meets_save_context_absent : let s := on noCask (withRegs [(2, 0x00FD_0000_0000_0000)])
    Ready (.ctxsave 1 2) s ∧ s.cur.mem = [] ∧ s.absentUnit (s.rs 2) = true := ⟨ready (by decide +kernel), rfl, by decide +kernel⟩
/-- A saved context with its block at s2; s4 names core 0 or 9. -/
def blockAt (x : Ctx) : State :=
  let s := withCtx x
  on ((s.vPut spad.toNat (saveBlock 7 x)).getD s) (withRegs [(4, 0), (5, 9)])
def asleepCtx : Ctx := { calm with saved := true, cores := [1, 0] }
def gives4 (s : State) (f : List Byte → State → Bool) : Bool :=
  match s.retire.loadBlock spad 256 4 with | .ok (bs, u) => f bs u | .error _ => false
theorem meets_load_context : let s := (blockAt { asleepCtx with cores := [1, 2] })
    Ready (.ctxload 6 2) (on s (withRegs [(6, 1)])) ∧ s.cur.mem = [] ∧ gives4 (on s (withRegs [(6, 1)])) (fun bs u =>
      decide (fieldAt bs 7 1 = 1) && decide (fieldAt bs 0 4 = 7) && (match u.loadChain (BitVec.ofNat 64 (fieldAt bs 0x10 8)) [] (2 ^ 48) with
        | .ok (chain, v) => (match v.loadPlace (resolveRcb chain).place with
          | .ok (some _, w) => givesBytes (w.syncStore (spad + 7) [2] 1) (fun _ _ => true)
          | _ => false)
        | .error _ => false)) = true := ⟨ready (by decide +kernel), by decide +kernel, by decide +kernel⟩
/-- The placement list of the region's RCB has no entry. -/
def badPlace : State :=
  on ((blockAt { asleepCtx with cores := [1, 2] }).vSet (spad.toNat + 0x3078) 8 (spad.toNat + 0x5000)) (withRegs [(6, 1)])
theorem meets_load_context_bad : Ready (.ctxload 6 2) badPlace ∧ gives4 badPlace (fun bs u =>
      decide (fieldAt bs 7 1 = 1) && decide (fieldAt bs 0 4 = 7) && (match u.loadChain (BitVec.ofNat 64 (fieldAt bs 0x10 8)) [] (2 ^ 48) with
        | .ok (chain, v) => (match v.loadPlace (resolveRcb chain).place with
          | .ok (none, _) => true
          | _ => false)
        | .error _ => false)) = true := ⟨ready (by decide +kernel), by decide +kernel⟩
theorem meets_load_context_refused : Ready (.ctxload 4 2) ms ∧ gives4 ms (fun bs _ => decide (fieldAt bs 7 1 ≠ 1)) = true
    ∧ Ready (.ctxload 4 2) (blockAt calm) ∧ gives4 (blockAt calm) (fun bs _ => decide (fieldAt bs 7 1 = 1)) = true ∧ calm.saved = false
    ∧ Ready (.ctxload 5 2) (blockAt asleepCtx) ∧ 9 ∉ asleepCtx.cores
    ∧ Ready (.ctxload 4 2) { blockAt calm with ctxs := [] } :=
  ⟨ready (by decide +kernel), by decide +kernel, ready (by decide +kernel), by decide +kernel, rfl, ready (by decide +kernel), by decide +kernel, ready (by decide +kernel)⟩

/-! ## Injected errors, keys, scrubs and assignments -/

theorem meets_injection : Ready (.errinj 20 1 0) ms ∧ MayInject ms (ms.ownerOfCore 7) ∧ injArmed 0 (ms.coreAt 7) = false
    ∧ Ready (.errinj 20 1 4) (ms.modCore 7 (fun c => { c with injParity := true })) ∧ Ready (.errinj 20 2 2) ms
    ∧ ms.retire.poisonedAt spad = false ∧ ms.namesAbsent spad = false ∧ ms.presentAddr spad = true ∧ Ready (.errinj 20 2 3) ms ∧ Ready (.errinj 20 1 1) ms :=
  ⟨ready (by decide +kernel), .inl rfl, by decide +kernel, ready (by decide +kernel), ready (by decide +kernel), by decide +kernel, by decide +kernel, by decide +kernel, ready (by decide +kernel), ready (by decide +kernel)⟩
theorem meets_injection_absent : Ready (.errinj 20 2 0) ms ∧ ms.ncores ≤ (ms.rs 2).toNat
    ∧ Ready (.errinj 20 2 2) (on noCask (withRegs [(2, 0x00FD_0000_0000_0000)])) ∧ noCask.namesAbsent 0x00FD_0000_0000_0000 = true :=
  ⟨ready (by decide +kernel), by decide +kernel, ready (by decide +kernel), by decide +kernel⟩
theorem meets_injection_nowhere : let s := on ms (withRegs [(2, hole)])
    Ready (.errinj 20 2 2) s ∧ Ready (.errinj 20 2 3) s ∧ s.namesAbsent hole = false ∧ s.presentAddr hole = false :=
  ⟨ready (by decide +kernel), ready (by decide +kernel), by decide +kernel, by decide +kernel⟩
theorem meets_injection_no_authority : Ready (.errinj 20 1 0) (astray ms) ∧ (astray ms).ownerOfCore 7 = none ∧ (astray ms).cur.pl = 1
    ∧ Ready (.errinj 20 2 2) (astray ms) ∧ (astray ms).ownerOfAddr spad = none :=
  ⟨ready (by decide +kernel), by decide +kernel, rfl, ready (by decide +kernel), by decide +kernel⟩
theorem meets_injection_already : ((ms.retire.poison spad).poisonedAt spad) = true
    ∧ Ready (.errinj 20 2 2) (ms.poison spad) ∧ MayInject (ms.poison spad) none :=
  ⟨by decide +kernel, ready (by decide +kernel), .inl rfl⟩
def keyed : State := { ms with keys := [(3, some 5)] }
theorem meets_keys : Ready (.kload 20 2 3) ms ∧ ms.keyAt 3 = none ∧ givesBytes (ms.retire.syncLoad spad 64 64) (fun _ _ => true) = true
    ∧ Ready (.kload 20 2 3) keyed ∧ keyed.keyAt 3 ≠ none ∧ Ready (.kzero 20 3) keyed ∧ keyed.cur.pl ≠ 1
    ∧ Ready (.kzero 20 3) (astray keyed) ∧ (astray keyed).ctxs = [] :=
  ⟨ready (by decide +kernel), by decide +kernel, by decide +kernel, ready (by decide +kernel), by decide +kernel, ready (by decide +kernel), by decide +kernel, ready (by decide +kernel), rfl⟩
theorem meets_link_key : Ready (.linkkey 20 2 4) ms ∧ givesBytes (ms.retire.syncLoad spad 44 64) (fun _ _ => true) = true
    ∧ (FMap.getD ms.links 4 Link.reset).marker = false ∧ Ready (.linkkey 20 2 4) { ms with links := [(4, { Link.reset with marker := true })] } :=
  ⟨ready (by decide +kernel), by decide +kernel, by decide +kernel, ready (by decide +kernel)⟩
/-- s1 and s2 give the first 4 KiB of core 0's scratchpad, s3 and s4 a page that is nobody's. -/
def sc (x : Ctx) : State := on (withCtx x) (withRegs [(1, 0x00F8_0000_0000_0000), (2, 0x1000), (3, 0x2000), (4, 0x2000)])
theorem meets_scrub : Ready (.scrub 20 1 2 0) (sc ctx0) ∧ (sc ctx0).rangeAbsent 0x00F8_0000_0000_0000 0x1000 = none
    ∧ (sc ctx0).scrubRange 0x00F8_0000_0000_0000 0x1000 = some (false, 0, 0x1000)
    ∧ covered ((sc ctx0).myResources false) 0 0x1000 (((sc ctx0).myResources false).length + 1) = true ∧ (sc ctx0).scrubBusy = false
    ∧ Ready (.scrub 20 1 2 0) { sc ctx0 with scrubBusy := true } :=
  ⟨ready (by decide +kernel), by decide +kernel, by decide +kernel, by decide +kernel, rfl, ready (by decide +kernel)⟩
theorem meets_scrub_refused : Ready (.scrub 20 3 4 0) (sc ctx0) ∧ (sc ctx0).scrubRange 0x2000 0x2000 = some (true, 0x2000, 0x4000)
    ∧ covered ((sc ctx0).myResources true) 0x2000 0x4000 (((sc ctx0).myResources true).length + 1) = false
    ∧ (sc ctx0).scrubPend.getLsbD 63 = false ∧ Ready (.scrub 20 1 0 0) (sc ctx0) ∧ (sc ctx0).scrubRange 0x00F8_0000_0000_0000 0 = none
    ∧ Ready (.scrub 20 1 2 0) (on noCask (withRegs [(1, 0x00FD_0000_0000_0000), (2, 64)]))
    ∧ noCask.rangeAbsent 0x00FD_0000_0000_0000 64 = some 0x00FD_0000_0000_0000 :=
  ⟨ready (by decide +kernel), by decide +kernel, by decide +kernel, by decide +kernel, ready (by decide +kernel), by decide +kernel, ready (by decide +kernel), by decide +kernel⟩
/-- An RCB of context 9 with one core, at s1, and a record of core 5, at s2; firmware has opened the device, or not. -/
def as0 (lc : BitVec 2) : State :=
  let s := { State.reset with lcstate := lc }
  let a := spad.toNat + 0x1000
  let s := (((s.vSet (a + 0x10) 4 9).vSet (a + 0x17) 1 8).vSet (a + 0xC0) 2 1).vSet (a + 0xC4) 4 64
  let s := s.vSet (a + 0x100) 4 0x1_0005
  on s (withRegs [(1, spad + 0x1000), (2, spad + 0x1100)])
def assigns (s : State) (f : Nat → List Nat → Bool) : Bool :=
  match s.retire.loadChain (s.rs 1) [] (2 ^ 48) with
  | .ok (chain, v) => (match v.loadBlock (s.rs 2) 64 1 with
    | .ok (rs, w) => (match w.loadPlace (resolveRcb chain).place with
      | .ok (devs, u) =>
        let cores := (List.range (fieldAt rs 2 2)).map (fun k => fieldAt rs 0 2 + k)
        decide (fieldAt rs 2 2 ≠ 0) && f (u.assignStatus chain (resolveRcb chain) ((chain.head?.map (fun c => c.ctxid.toNat)).getD 0)
          (decide (fieldAt rs 2 2 = 0)) cores devs (BitVec.ofNat 64 (fieldAt rs 8 8)) (fieldAt rs 0x10 4)) cores
      | .error _ => false)
    | .error _ => false)
  | .error _ => false
theorem meets_assign : Ready (.assign 20 1 2) (as0 2) ∧ (as0 2).cur.mem = []
    ∧ assigns (as0 2) (fun st cores => decide (st = 0) && decide (cores = [5])) = true ∧ (as0 2).ev.core ∉ [5] :=
  ⟨ready (by decide +kernel), rfl, by decide +kernel, by decide +kernel⟩
theorem meets_assign_refused : Ready (.assign 20 1 2) (as0 0) ∧ assigns (as0 0) (fun st _ => decide (st = 11)) = true :=
  ⟨ready (by decide +kernel), by decide +kernel⟩
/-- The context's cores are not the issuer's. -/
def far (x : Ctx) : Ctx := { x with cores := [1, 2] }
def sealed (x : Ctx) : Ctx := { x with rcb := { rcb0 with modef := 1, keyslot := 3 } }
theorem meets_release : Ready (.release 1) (withCtx (far calm)) ∧ Governs (withCtx (far calm)) 7 (far calm)
    ∧ (far calm).H = (far calm).total ∧ (far calm).yreq ≠ none ∧ (withCtx (far calm)).ev.core ∉ (far calm).cores
    ∧ (withCtx (far calm)).queues = [] ∧ (far calm).rcb.modef.getLsbD 0 = false :=
  ⟨ready (by decide +kernel), ⟨by decide +kernel, by decide +kernel⟩, by decide +kernel, by decide +kernel, by decide +kernel, rfl, by decide +kernel⟩
theorem meets_release_saved : let x := { far calm with saved := true, block := spad }
    Ready (.release 1) (withCtx x) ∧ Governs (withCtx x) 7 x ∧ (withCtx x).cur.mem = []
      ∧ givesBytes ((withCtx x).retire.syncStore (spad + 7) [0] 1) (fun _ _ => true) = true :=
  ⟨ready (by decide +kernel), ⟨by decide +kernel, by decide +kernel⟩, rfl, by decide +kernel⟩
theorem meets_release_refused : Ready (.release 1) (withCtx ctx0) ∧ ctx0.saved = false ∧ ctx0.yreq = none
    ∧ (let s := { withCtx (sealed calm) with keys := [(3, some 5)] }
       Ready (.release 1) s ∧ Governs s 7 (sealed calm) ∧ (sealed calm).rcb.modef.getLsbD 0 = true ∧ s.keyAt 3 ≠ none) :=
  ⟨ready (by decide +kernel), rfl, rfl, ready (by decide +kernel), ⟨by decide +kernel, by decide +kernel⟩, by decide +kernel, by decide +kernel⟩

/-! ## Steps that no word encodes: causes, accesses and parks -/

def isDone (p : Perf) : Bool := match p with | .done _ _ => true | _ => false
theorem performs {s : State} {k : Nat} {x : Access} (h : s.walkTarget s.ev.core x.addr (match x.form with | .lane _ _ => none | _ => some x.tag) = none)
    (h' : isDone (s.perform s.ev.core x (s.cur.mem.take k)) = true) : ∃ vals u, Performs s k x vals u := by
  unfold isDone at h'
  split at h'
  · exact ⟨_, _, h, ‹_›⟩
  · cases h'
/-- Core 0 at user level with some accesses, and the place that the step concerns. -/
def acc (l : List Access) (k : Nat) : State := withEv (on (user ctx0) (fun c => { c with mem := l })) 0 k 0 [] true
theorem alone {s : State} (h : (decide (s.cur.pl = 0) && decide (s.cur.leader = none) && s.cur.members.isEmpty) = true) : Alone s := by
  simp only [Bool.and_eq_true, decide_eq_true_eq, List.isEmpty_iff] at h
  exact ⟨h.1.1, h.1.2, h.2⟩

def e1 : State := on (user ctx0) (fun c => { c with preempt := true, tvec := spad + 0x100 })
theorem meets_preempt_trap : e1.cur.preempt = true ∧ Alone e1 ∧ e1.cur.run = .running ∧ e1.isDet e1.cur = false ∧ e1.cur.txn = .none
    ∧ e1.cur.mem = [] ∧ e1.cur.uncleared = false := ⟨rfl, alone (by decide +kernel), rfl, by decide +kernel, rfl, rfl, by decide +kernel⟩
def e2 : State := on (user ctx0) (fun c => { c with run := .waking, pl := 1, events := [(cQuiescent, 7), (cWeightLost, 7)] })
theorem meets_region_event : e2.cur.run = .waking ∧ e2.cur.preempt = false ∧ e2.cur.events = (cQuiescent, 7) :: [(cWeightLost, 7)]
    ∧ e2.ctx? 7 = some ctx0 := ⟨rfl, rfl, rfl, by decide +kernel⟩
/-- Packets in flight to, or from, core 0. -/
def pkt (dest : Dest) (body : Body) : Packet := { src := 1, dest := dest, ctx := 7, body := body }
def sent (s : State) (l : List Packet) : State := { s with net := l }
def e3 : State := sent (user ctx0) [pkt (.core 0) (.yreq true)]
theorem meets_yield_request : First e3 (pkt (.core 0) (.yreq true)) [] ∧ e3.cur.ctxid.toNat = 7 ∧ e3.cur.popReq = false :=
  ⟨⟨rfl, rfl, by decide +kernel⟩, by decide +kernel, rfl⟩
theorem meets_yield_request_back : let s := on e3 (fun c => { c with popReq := true })
    First s (pkt (.core 0) (.yreq true)) [] ∧ s.cur.popReq = true := ⟨⟨rfl, rfl, by decide +kernel⟩, rfl⟩
/-- A bundle in the scratchpad, where core 0 fetches. -/
def code (b : W64) : State :=
  let s := ((user ctx0).vPut spad.toNat (toBytes 8 b.toNat)).getD (user ctx0)
  on s (fun c => { c with code := some s.codeView, t := { c.t with pc := spad } })
def illegalWord (s : State) (b : W64) : Bool :=
  match s.fetch s.ev.core (s.cur.t.pc &&& ~~~(7 : W64)) with
  | .bundle b' _ => decide (b' = b) && (s.cur.illegalAt s.cur.t.pc b).isSome
  | _ => false
theorem meets_illegal : (code 0x8000_0000_0000_0000).firmware = true ∧ (code 0x8000_0000_0000_0000).cur.canIssue = true ∧ (code 0x8000_0000_0000_0000).cur.uncleared = false
    ∧ illegalWord (code 0x8000_0000_0000_0000) 0x8000_0000_0000_0000 = true := by decide +kernel
theorem meets_fetch_fault : (onT (user ctx0) (fun t => { t with pc := hole + 4 })).fetchCause 0 = some cBadAddress := by decide +kernel

def divDone : State := onT (user ctx0) (fun t => { t with
  div := some { tag := 9, val := 5, flags := 2, due := 0, issued := 1, float := true }
  pend := [{ file := .s, reg := 4, val := 0, mask := none, issued := 1, visible := none, tag := 9 }] })
theorem meets_divide_result : ∃ d, divDone.cur.t.div = some d ∧ d.due ≤ divDone.cycle := ⟨_, rfl, by decide +kernel⟩
def a1 : State := acc [load1] 0
theorem meets_reply : Concerns a1 0 load1 ∧ (∀ b, a1.cur.txn ≠ .waita load1.tag b) ∧ a1.isRemote 0 load1 = false ∧ a1.mayPerform 0 0 = true
    ∧ ∃ vals u, Performs a1 0 load1 vals u :=
  ⟨⟨rfl, rfl⟩, (fun _ h => by cases h), by decide +kernel, by decide +kernel, performs (by decide +kernel) (by decide +kernel)⟩
def load3 : Access := { load1 with performed := true, result := [1, 2, 3, 4, 5, 6, 7, 8] }
theorem meets_reply_returned : Concerns (acc [load3] 0) 0 load3 ∧ (∀ b, (acc [load3] 0).cur.txn ≠ .waita load3.tag b) :=
  ⟨⟨rfl, rfl⟩, (fun _ h => by cases h)⟩
/-- The bank's latency is not over. -/
def load6 : Access := { load1 with due := 3 }
theorem meets_reply_early : Concerns (acc [load6] 0) 0 load6 ∧ (acc [load6] 0).mayPerform 0 0 = true ∧ (acc [load6] 0).cycle < load6.due
    ∧ ∃ vals u, Performs (acc [load6] 0) 0 load6 vals u := ⟨⟨rfl, rfl⟩, by decide +kernel, by decide +kernel, performs (by decide +kernel) (by decide +kernel)⟩
def wait1 : Access := { load1 with kind := .waita, data := List.replicate 8 0 }
def waits (x : Access) (b : Bool) : State := on (acc [x] 0) (fun c => { c with txn := .waita x.tag b })
theorem meets_wait_reply : Concerns (waits wait1 false) 0 wait1 ∧ (waits wait1 false).isRemote 0 wait1 = false
    ∧ (waits wait1 false).mayPerform 0 0 = true ∧ (waits wait1 false).cur.txn = .waita wait1.tag false
    ∧ ∃ vals u, Performs (waits wait1 false) 0 wait1 vals u :=
  ⟨⟨rfl, rfl⟩, by decide +kernel, by decide +kernel, rfl, performs (by decide +kernel) (by decide +kernel)⟩
def join1 : Access := { load1 with kind := .join, bytes := [], tag := 5, prior := [3] }
theorem meets_join_done : Concerns (acc [load3, join1] 1) 1 join1 ∧ (acc [load3, join1] 1).joinDone 0 1 join1 = true :=
  ⟨⟨rfl, rfl⟩, by decide +kernel⟩
theorem meets_store_accepted : Concerns (acc [store1] 0) 0 store1 ∧ (acc [store1] 0).mayAccept 0 0 = true
    ∧ (acc [store1] 0).regOff? store1.addr = none ∧ ∃ vals u, Performs (acc [store1] 0) 0 store1 vals u :=
  ⟨⟨rfl, rfl⟩, by decide +kernel, by decide +kernel, performs (by decide +kernel) (by decide +kernel)⟩
def store2 : Access := { store1 with cleared := true }
theorem meets_store_performed : Concerns (acc [store2] 0) 0 store2 ∧ (acc [store2] 0).mayPerform 0 0 = true
    ∧ (acc [store2] 0).isRemote 0 store2 = false ∧ (∃ vals u, Performs (acc [store2] 0) 0 store2 vals u)
    ∧ (∀ l ∈ store2.bytes, isDirect l = true) ∧ store2.bytes.Nodup ∧ store2.bytes.length = store2.data.length :=
  ⟨⟨rfl, rfl⟩, by decide +kernel, by decide +kernel, performs (by decide +kernel) (by decide +kernel), by decide +kernel, by decide +kernel, by decide +kernel⟩
/-- Lines 0x4040 is homed at core 1 and is in the caches. -/
def away (x : Access) (moving : List Nat) : State :=
  { acc [x] 0 with
    cache := [(0x101, { pa := 0x8040, data := 5, dirty := false, hint := .default, l1 := none, bad := 0 })], moving := moving }
def load4 : Access :=
  { load1 with addr := 0x4040, bytes := (List.range 8).map (fun i => State.reset.locate (0x4040 + BitVec.ofNat 64 i)) }
theorem meets_remote : Concerns (away load4 []) 0 load4 ∧ (away load4 []).isRemote 0 load4 = true ∧ (away load4 []).mayPerform 0 0 = true
    ∧ ∃ vals u, Performs (away load4 []) 0 load4 vals u :=
  ⟨⟨rfl, rfl⟩, by decide +kernel, by decide +kernel, performs (by decide +kernel) (by decide +kernel)⟩
def amo4 : Access := { load4 with kind := .atomic 0, data := toBytes 8 3, cleared := true }
theorem meets_forward : Concerns (away amo4 [2]) 0 amo4 ∧ (away amo4 [2]).ev.ok = true
    ∧ (∃ b ∈ amo4.bytes, spaceOf b = spVirt ∧ offOf b / 8192 ∈ (away amo4 [2]).moving) ∧ (away amo4 []).mayPerform 0 0 = true
    ∧ isDone ((away amo4 [2]).perform 0 amo4 []) = true := ⟨⟨rfl, rfl⟩, rfl, by decide +kernel, by decide +kernel, by decide +kernel⟩
def amo5 : Access := { amo4 with addr := 0x00F0_0000_1000_0000, cleared := false }
/-- It has been out for 20 µs. -/
def late (s : State) : State := { s with quarters := 80000 }
theorem meets_retransmit : let s := late (withEv (acc [amo5] 0) 0 0 1 [] true)
    Concerns s 0 amo5 ∧ s.window amo5.addr = .spad 0 1 0 0 ∧ 1 ≠ s.devid ∧ amo5.since + 20000 ≤ s.time ∧ s.mayPerform 0 0 = true
      ∧ amo5.losses < 2 := ⟨⟨rfl, rfl⟩, by decide +kernel, by decide +kernel, by decide +kernel, by decide +kernel, by decide +kernel⟩
def amo6 : Access := { amo5 with performed := true, result := toBytes 8 7 }
theorem meets_retransmit_answered : let s := late (acc [amo6] 0)
    Concerns s 0 amo6 ∧ s.ev.val = 0 ∧ amo6.performed = true ∧ s.ev.ok = true ∧ amo6.since + 20000 ≤ s.time :=
  ⟨⟨rfl, rfl⟩, rfl, rfl, rfl, by decide +kernel⟩
theorem meets_retransmit_lost : let s := late (acc [amo5] 0)
    Concerns s 0 amo5 ∧ s.ev.val = 0 ∧ amo5.performed = false ∧ amo5.since + 20000 ≤ s.time ∧ s.mayPerform 0 0 = true :=
  ⟨⟨rfl, rfl⟩, rfl, rfl, by decide +kernel, by decide +kernel⟩
def load5 : Access := { load1 with handle := some { id := id1, scope := .dev } }
def a2 : State := { acc [load1, load5] 1 with seqrs := [(0, { Seqr.reset with alloc := true, holders := 1, next := 4, opens := [2] })] }
theorem meets_ticket : Concerns a2 1 load5 ∧ load5.handle = some { id := id1, scope := .dev } ∧ load5.ticket = none
    ∧ (id1.extractLsb' 18 14).toNat = a2.devid ∧ ∀ e ∈ a2.cur.mem.take 1, e.ticket ≠ none ∨ e.handle.map (·.id) ≠ some id1 :=
  ⟨⟨rfl, rfl⟩, rfl, rfl, by decide +kernel, by decide +kernel⟩

/-- A handle of device 5, which does not answer. -/
def away5 : Access := { load1 with handle := some { id := 0x0014_0001, scope := .dev } }
theorem meets_ticket_away : let s := withEv (acc [away5] 0) 0 0 0 [] false
    Concerns s 0 away5 ∧ ((0x0014_0001 : W32).extractLsb' 18 14).toNat ≠ s.devid ∧ s.ev.ok = false ∧ s.cur.pushes = [] ∧ Alone s :=
  ⟨⟨rfl, rfl⟩, by decide +kernel, rfl, rfl, alone (by decide +kernel)⟩
/-- Core 0 is idle in the region. -/
def idle0 (s : State) : State := on s (fun c => { c with run := .idle })
def arriving : State := sent (idle0 (user ctx0)) [pkt (.core 0) (.migrate { Thread.reset with pc := spad, w := 3 } (some 4))]
theorem meets_migration : First arriving (pkt (.core 0) (.migrate { Thread.reset with pc := spad, w := 3 } (some 4))) []
    ∧ arriving.ctx? 7 = some ctx0 ∧ arriving.idleCore 0 7 = true := ⟨⟨rfl, rfl, by decide +kernel⟩, by decide +kernel, by decide +kernel⟩
def fwd0 : State := on (user ctx0) (fun c => { c with fwd := [(1, 0, 6)] })
theorem meets_forward_entry : fwd0.cur.fwd[fwd0.ev.pick]? = some (1, 0, 6) ∧ 0 ≤ fwd0.time ∧ fwd0.owed 0 6 = false :=
  ⟨rfl, by decide +kernel, by decide +kernel⟩
def parked1 : Access := { load1 with parked := some (0x8000 * 256, 0) }
theorem meets_park_limit : (acc [parked1] 0).cur.mem[0]? = some parked1 ∧ (acc [parked1] 0).pastLimit 7 0 = true ∧ Alone (acc [parked1] 0) :=
  ⟨rfl, by decide +kernel, alone (by decide +kernel)⟩
def cmdParked : CopyCmd := { cmd0 with validated := true, parked := some (0x8000 * 256, 0) }
/-- Core 0's engine holds a command. -/
def eng (k : CopyCmd) (s : State) : State := on s (fun c => { c with copyq := [k] })
theorem meets_park_limit_command : let s := withEv (eng cmdParked (user ctx0)) 0 0 3 [] true
    s.ev.val = 3 ∧ s.cmdAt s.ev.core s.ev.pick = some cmdParked ∧ s.pastLimit cmdParked.ctx 0 = true := ⟨rfl, rfl, by decide +kernel⟩
theorem meets_waita_wake : (waits wait1 true).isDet (waits wait1 true).cur = false ∧ (waits wait1 true).cur.txn = .waita 3 true :=
  ⟨by decide +kernel, rfl⟩
theorem meets_refresh : State.reset.hasCask = true ∧ State.reset.inRefresh 0 0 = true ∧ 0 ∉ State.reset.refresh
    ∧ State.reset.inRefresh 0 1 = false := ⟨by decide +kernel, by decide +kernel, by decide +kernel, by decide +kernel⟩
theorem meets_soft_error : let s := withEv State.reset 0 0 (spad + 5) [] false
    s.window s.ev.val = .spad 0 s.devid 0 0x1005 ∧ s.ev.ok = false := ⟨by decide +kernel, rfl⟩

/-! ## Messages, units and the home core -/

/-- A test on what an optional state gives. -/
def someMeets (x : Option State) (f : State → Bool) : Bool := match x with | some s => f s | none => false
theorem someMeets_some {x : Option State} (h : someMeets x (fun _ => true) = true) : ∃ u, x = some u := by
  cases x with
  | none => cases h
  | some u => exact ⟨u, rfl⟩
def g1 : State := sent n1 [pkt (.core 0) (.msg msg1 none)]
theorem meets_message : First g1 (pkt (.core 0) (.msg msg1 none)) [] ∧ g1.ev.data = [] ∧ g1.ctx? 7 = some ctx0 ∧ g1.cur.ctxid.toNat = 7
    ∧ (1 ≤ msg1.kind ∧ msg1.kind ≤ 3) ∧ g1.fresh msg1 = true ∧ g1.cur.inbox.length < 32 ∧ g1.mustSpill g1.ev.core = none :=
  ⟨⟨rfl, rfl, by decide +kernel⟩, rfl, by decide +kernel, by decide +kernel, by decide +kernel, by decide +kernel, by decide +kernel, by decide +kernel⟩
theorem meets_credit : First (sent n1 [pkt (.core 0) .credit]) (pkt (.core 0) .credit) [] ∧ (sent n1 [pkt (.core 0) .credit]).ev.ok = false :=
  ⟨⟨rfl, rfl, by decide +kernel⟩, rfl⟩
def g2 : State := on (sent n1 [pkt (.core 0) (.qans 1 0 5 0)]) (fun c => { c with txn := .qenq })
theorem meets_answer : First g2 (pkt (.core 0) (.qans 1 0 5 0)) [] ∧ g2.ev.ok = false ∧ g2.cur.txn = .qenq ∧ g2.cur.t.run = 0 :=
  ⟨⟨rfl, rfl, by decide +kernel⟩, rfl, rfl, rfl⟩
def g3 : State := sent n1 [pkt (.queue qh3) (.msg msg1 none)]
theorem meets_item : First g3 (pkt (.queue qh3) (.msg msg1 none)) [] ∧ msg1.weight ≠ 0 ∧ g3.ctx? 7 ≠ none ∧ g3.queueOf qh3 = some q3
    ∧ g3.isRunQueue qh3 = false ∧ 7 = q3.owner.toNat ∧ q3.full = false ∧ q3.sleepers = [] ∧ q3.watch = [] ∧ g3.ringParks q3 = none
    ∧ ∃ u, ({ g3 with net := [] } : State).ringPush qh3 q3 msg1.bytes = some u :=
  ⟨⟨rfl, rfl, by decide +kernel⟩, by decide +kernel, by decide +kernel, by decide +kernel, by decide +kernel, by decide +kernel, by decide +kernel, rfl, rfl, by decide +kernel, someMeets_some (by decide +kernel)⟩
def g4 : State := idle0 (withInbox [msg1] n1)
theorem meets_start_handler : g4.cur.run = .idle ∧ g4.cur.inbox = msg1 :: [] ∧ g4.fresh msg1 = true ∧ g4.ctxOf g4.cur = some ctx0
    ∧ g4.idleIn g4.ev.core g4.cur.ctxid = true ∧ g4.mustSpill g4.ev.core = none ∧ g4.cur.popReq = false ∧ g4.popOut g4.ev.core ctx0 = false
    ∧ msg1.payload.length = 6 := ⟨rfl, rfl, by decide +kernel, by decide +kernel, by decide +kernel, by decide +kernel, rfl, by decide +kernel, rfl⟩
/-- The region spills to queue 3, and its oldest inbox entry is no DATA message. -/
def spills : Ctx := { ctx0 with rcb := { rcb0 with spillq := qh3 } }
def nack1 : Msg := { msg1 with kf := 0x1216 }
def g5 : State := idle0 (withInbox [nack1] { n1 with ctxs := [(7, spills)] })
theorem meets_spill : g5.cur.run = .idle ∧ g5.cur.inbox = nack1 :: [] ∧ g5.fresh nack1 = true ∧ g5.ctxOf g5.cur = some spills
    ∧ g5.idleIn g5.ev.core g5.cur.ctxid = true ∧ g5.mustSpill g5.ev.core = some nack1 ∧ g5.spillOf g5.cur = some (qh3, q3)
    ∧ ∃ u, g5.ringPush qh3 q3 nack1.bytes = some u :=
  ⟨rfl, rfl, by decide +kernel, by decide +kernel, by decide +kernel, by decide +kernel, by decide +kernel, someMeets_some (by decide +kernel)⟩
def mc1 : Mcst := { id := 0, ctx := 7, vint := 5, unit := 2, total := 3, answered := 3, failed := 2 }
def g6 : State := on n1 (fun c => { c with mcsts := [mc1] })
theorem meets_mcst_done : g6.cur.mcsts[g6.ev.pick]? = some mc1 ∧ mc1.total ≤ mc1.answered ∧ g6.isDet g6.cur = false :=
  ⟨rfl, by decide +kernel, by decide +kernel⟩
def detRegion : Ctx := { ctx0 with rcb := { rcb0 with modef := 2 } }
def g6d : State := { g6 with ctxs := [(7, detRegion)] }
theorem meets_mcst_done_det : g6d.cur.mcsts[g6d.ev.pick]? = some mc1 ∧ g6d.isDet g6d.cur = true ∧ g6d.ctxOf g6d.cur = some detRegion
    ∧ detRegion.committing = false := ⟨rfl, by decide +kernel, by decide +kernel, rfl⟩
def g7 : State := sent n1 [pkt (.home 7) (.draw 0)]
theorem meets_draw_request : First g7 (pkt (.home 7) (.draw 0)) [] ∧ g7.ev.ok = false ∧ g7.ctx? 7 = some ctx0 ∧ ctx0.H ≠ 0 ∧ ctx0.draws = [] :=
  ⟨⟨rfl, rfl, by decide +kernel⟩, rfl, by decide +kernel, by decide +kernel, rfl⟩
def g8 : State := on (sent n1 [pkt (.core 0) (.grant 5 50 0)]) (fun c => { c with txn := .draw 3 })
theorem meets_grant : First g8 (pkt (.core 0) (.grant 5 50 0)) [] ∧ g8.cur.txn = .draw 3 ∧ g8.cur.ctxid.toNat = 7 ∧ g8.cur.t.run = 0
    ∧ g8.cur.t.w ≠ 0 := ⟨⟨rfl, rfl, by decide +kernel⟩, rfl, by decide +kernel, rfl, by decide +kernel⟩
theorem meets_weight_return : First (sent n1 [pkt (.home 7) (.wret 5 4)]) (pkt (.home 7) (.wret 5 4)) []
    ∧ First (sent n1 [pkt (.home 7) (.wret 4 4)]) (pkt (.home 7) (.wret 4 4)) [] ∧ n1.ctx? 7 = some ctx0 ∧ ctx0.vint = 5
    ∧ ctx0.saved = false := ⟨⟨rfl, rfl, by decide +kernel⟩, ⟨rfl, rfl, by decide +kernel⟩, by decide +kernel, rfl, rfl⟩
/-- A context of `x`, some nanoseconds after reset, as the step's own. -/
def homeAt (x : Ctx) (ns : Nat) (ok : Bool) : State := withEv { n1 with ctxs := [(7, x)], quarters := 4 * ns } 0 0 7 [] ok
def yielding : Ctx := { ctx0 with yreq := some 0 }
theorem meets_deadline : (homeAt yielding 10 true).ctx? 7 = some yielding ∧ yielding.yreq = some 0 ∧ yielding.lost = false
    ∧ yielding.H ≠ yielding.total ∧ 0 + yielding.rcb.qdeadline.toNat ≤ (homeAt yielding 10 true).time :=
  ⟨by decide +kernel, rfl, rfl, by decide +kernel, by decide +kernel⟩
/-- The same with all weight accounted for, and with core 1 as the region's supervisor core. -/
def whole7 : Ctx := { yielding with H := 247 }
theorem meets_deadline_lost : (homeAt yielding 10 true).audit 7 < yielding.total ∧ (homeAt yielding 10 true).supervisorOf 7 = none
    ∧ ((homeAt yielding 10 true).modCore 1 (fun c => { c with supv := true, region := 7 })).supervisorOf 7 = some 1
    ∧ ((homeAt yielding 10 true).modCore 1 (fun c => { c with supv := true, region := 7 })).audit 7 < yielding.total := by decide +kernel
theorem meets_deadline_whole : (homeAt whole7 10 true).ctx? 7 = some whole7 ∧ whole7.yreq = some 0 ∧ whole7.lost = false
    ∧ whole7.H ≠ whole7.total ∧ whole7.total ≤ (homeAt whole7 10 true).audit 7 := by decide +kernel
def heldMsg : HeldMsg := { until_ := 0, pkt := pkt (.core 0) (.msg msg1 none) }
theorem meets_held_message : ({ n1 with heldMsgs := [heldMsg] } : State).heldMsgs[n1.ev.pick]? = some heldMsg ∧ heldMsg.until_ ≤ n1.time :=
  ⟨rfl, by decide +kernel⟩
/-- A load of another device's scratchpad, and a message to that device, 50 µs ago. -/
def load7 : Access :=
  { load1 with addr := 0x00F0_0000_1000_0000, bytes := (List.range 8).map (fun i => State.reset.locate (0x00F0_0000_1000_0000 + BitVec.ofNat 64 i)) }
def later (s : State) : State := { s with quarters := 200_000 }
def g9 : State := later (withEv (acc [load7] 0) 0 0 0 [] false)
theorem meets_gateway : Concerns g9 0 load7 ∧ g9.ev.ok = false ∧ g9.ev.val = 0 ∧ (∃ b ∈ load7.bytes, (g9.awayAt b).isSome = true)
    ∧ load7.performed = false ∧ load7.since + 50000 ≤ g9.time ∧ g9.cur.pushes = [] ∧ Alone g9 :=
  ⟨⟨rfl, rfl⟩, rfl, rfl, by decide +kernel, rfl, by decide +kernel, rfl, alone (by decide +kernel)⟩
def away1 : Packet := { pkt (.remote 0x0014_0000) (.msg msg1 none) with since := some 0 }
theorem meets_gateway_message : First (later (sent n1 [away1])) away1 [] ∧ msg1.kind ≠ 6
    ∧ 0 + 50000 ≤ (later (sent n1 [away1])).time ∧ (later (withEv (sent n1 [away1]) 0 0 0 [] true)).ev.ok = true :=
  ⟨⟨rfl, rfl, by decide +kernel⟩, by decide +kernel, by decide +kernel, rfl⟩

/-- The region has two free frames, and run queues 3 and 4. -/
def framed : Ctx := { ctx0 with freeHead := spad + 0x1100, rcb := { rcb0 with cq := [qh3, qh4] ++ List.replicate 14 0 } }
def start1 : Msg := { msg1 with kf := 1, hnd := 0 }
def k1 : State := sent { n1 with ctxs := [(7, framed)] } [pkt (.home 7) (.start start1 1 0x4000)]
theorem meets_start : First k1 (pkt (.home 7) (.start start1 1 0x4000)) [] ∧ k1.ctx? 7 = some framed ∧ start1.vint = framed.vint
    ∧ ({ k1 with net := [] } : State).areaWait (framed.freeArea ++ ({ k1 with net := [] } : State).queueAreas framed 1) = false
    ∧ ∃ u, ({ k1 with net := [] } : State).startRecord 7 start1 1 0x4000 = some u :=
  ⟨⟨rfl, rfl, by decide +kernel⟩, by decide +kernel, rfl, by decide +kernel, someMeets_some (by decide +kernel)⟩
def k2 : State := idle0 n1
theorem meets_pop_request : k2.ctxOf k2.cur = some ctx0 ∧ k2.cur.run = .idle ∧ k2.idleIn k2.ev.core k2.cur.ctxid = true ∧ k2.cur.inbox = []
    ∧ k2.cur.yreq = false ∧ ctx0.saved = false ∧ k2.cur.popReq = false ∧ k2.popOut k2.ev.core ctx0 = false ∧ k2.isDet k2.cur = false :=
  ⟨by decide +kernel, rfl, by decide +kernel, rfl, rfl, rfl, rfl, by decide +kernel, by decide +kernel⟩
theorem meets_pop_arrives : First (sent n1 [pkt (.home 7) .pop]) (pkt (.home 7) .pop) [] ∧ (sent n1 [pkt (.home 7) .pop]).ev.ok = false
    ∧ First (sent n1 [pkt (.home 7) .unpop]) (pkt (.home 7) .unpop) [] ∧ n1.ctx? 7 = some ctx0 :=
  ⟨⟨rfl, rfl, by decide +kernel⟩, rfl, ⟨rfl, rfl, by decide +kernel⟩, by decide +kernel⟩
/-- Core 0 is idle, its request waits, and queue 3 holds the record of the frame at 0x1000 of the scratchpad. -/
def popped : Ctx := { framed with pops := [0] }
def frame0 : Nat := spad.toNat + 0x1000
def k3 : State :=
  let s := { idle0 (homeAt popped 0 true) with queues := [(3, { q3 with tail := 1 })] }
  (s.vPut (spad.toNat + 0x4000) (runEntry frame0 3 5)).getD s
theorem meets_pop_served : k3.ctx? 7 = some popped ∧ k3.mayPop popped = true ∧ popped.pops = 0 :: [] ∧ popped.order 0 (k3.fullQueues popped) = [0]
    ∧ k3.idleIn 0 7 = true ∧ k3.queueOf (popped.rcb.cq.getD 0 0) = some { q3 with tail := 1 } ∧ popped.chains.getD 0 0 = 0
    ∧ k3.frameOk popped frame0 = true
    ∧ frame0 = k3.vNum ((k3.skipVoid { q3 with tail := 1 } 1).entry (k3.skipVoid { q3 with tail := 1 } 1).head) 8
    ∧ k3.areaWait (((k3.skipVoid { q3 with tail := 1 } 1).entry (k3.skipVoid { q3 with tail := 1 } 1).head, 64) :: frameArea frame0
        :: k3.queueAreas popped 0) = false := by decide +kernel
/-- A governed region: queue 0 holds 3 entries and queue 1 none, cores 0 and 1 are bound to queue 1, and core 1 is idle. -/
def governed : Ctx := { framed with
  stages := [(0, 1), (1, 1)], rcb := { framed.rcb with modef := 4, govmask := 3, govhi := 2, govlo := 1 } }
def k4 : State :=
  { (homeAt governed 1000 true).modCore 1 (fun c => { c with run := .idle, ctxid := 7 }) with
    queues := [(3, { q3 with tail := 3 }), (4, q3)] }
theorem meets_governor : k4.ctx? 7 = some governed ∧ governed.rcb.modef.getLsbD 2 = true ∧ governed.yreq = none ∧ governed.saved = false
    ∧ governed.govAt + 1000 ≤ k4.time ∧ governed.rcb.govmask ≠ 0
    ∧ (List.range 16).filter (fun q => governed.rcb.govmask.getLsbD q) = [0, 1] ∧ k4.entries governed 1 < k4.entries governed 0
    ∧ governed.rcb.govhi.toNat < k4.entries governed 0 ∧ k4.entries governed 1 < governed.rcb.govlo.toNat
    ∧ 2 ≤ (governed.stages.filter (fun e => decide (e.2 = 1))).length ∧ (1, 1) ∈ governed.stages ∧ k4.idleIn 1 7 = true := by decide +kernel
/-- A trigger block for region 7 with tag 0x77, and a graph of one node. -/
def block7 : List Byte := toBytes 4 7 ++ List.replicate 4 0 ++ toBytes 8 0x77 ++ List.replicate 240 0
def node1 : List Byte := toBytes 8 0x4000 ++ (List.range 6).flatMap (fun i => toBytes 8 i) ++ toBytes 4 1 ++ toBytes 4 1
def ready7 : Ctx := { framed with H := 256 }
def k5 : State :=
  let s := withEv (homeAt ready7 0 true) 0 0 0 block7 true
  (s.vPut (spad.toNat + 0x2000) node1).getD s
def node0 : Node := { dest := 0x4000, payload := [0, 1, 2, 3, 4, 5], weight := 1 }
theorem meets_trigger : fieldAt k5.ev.data 0 4 = 7 ∧ k5.ctx? 7 = some ready7 ∧ k5.caskBusy = false ∧ ready7.H = ready7.total
    ∧ ready7.saved = false ∧ ready7.yreq = none ∧ k5.ev.data.length = 256 ∧ fieldAt k5.ev.data 4 1 = 0
    ∧ k5.readGraph ready7.rcb.graph.toNat (2 ^ 50) = some [node0] ∧ node0.weight ≤ ready7.total ∧ 1 ≤ (k5.freeFrames ready7).length := by decide +kernel
def node0Msg : Msg := { kf := 1, vint := 5, weight := BitVec.ofNat 32 node0.weight, src := 0, hnd := 0, payload := node0.payload, ctx := 7 }
theorem meets_trigger_accepted : ∃ u, k5.startRecord 7 node0Msg (node0.dest / 2 ^ 58 % 16) (BitVec.ofNat 64 (node0.dest % 2 ^ 56)) = some u :=
  someMeets_some (by decide +kernel)
theorem meets_trigger_refused : ({ k5 with ctxs := [] } : State).ctx? (fieldAt k5.ev.data 0 4) = none
    ∧ ({ k5 with caskOpen := 1 } : State).caskBusy = true ∧ ({ k5 with ctxs := [(7, framed)] } : State).ctx? 7 = some framed
    ∧ framed.H ≠ framed.total := by decide +kernel
/-- A deterministic region whose cores are idle, before and in its commit. -/
def detCtx0 : Ctx := { ctx0 with rcb := { rcb0 with modef := 2 } }
def k6 (x : Ctx) : State := (idle0 (homeAt x 0 true)).modCore 1 (fun c => { c with run := .idle, ctxid := 7 })
theorem meets_quantum : (k6 detCtx0).ctx? 7 = some detCtx0 ∧ detCtx0.rcb.modef.getLsbD 1 = true ∧ detCtx0.committing = false
    ∧ ∀ n ∈ detCtx0.cores, ((k6 detCtx0).coreAt n).reached = true :=
  ⟨by decide +kernel, by decide +kernel, rfl, by decide +kernel⟩
/-- In its commit: core 0 is next, or the engines, or nothing. -/
def commits (l : List Nat) (e : Bool) : Ctx := { detCtx0 with committing := true, toCommit := l, engines := e }
theorem meets_quantum_core : (k6 (commits [0, 1] true)).ctx? 7 = some (commits [0, 1] true)
    ∧ (∀ n ∈ (commits [0, 1] true).cores, ((k6 (commits [0, 1] true)).coreAt n).qgo = false)
    ∧ ((k6 (commits [0, 1] true)).coreAt 0).mem = [] ∧ ((k6 (commits [0, 1] true)).coreAt 0).heldOut = [] :=
  ⟨by decide +kernel, by decide +kernel, by decide +kernel, by decide +kernel⟩
theorem meets_quantum_engines : (k6 (commits [] true)).ctx? 7 = some (commits [] true)
    ∧ (∀ n ∈ (commits [] true).cores, ((k6 (commits [] true)).coreAt n).qgo = false ∧ ((k6 (commits [] true)).coreAt n).copyq = [])
    ∧ (k6 (commits [] true)).tiles = [] := ⟨by decide +kernel, by decide +kernel, rfl⟩
theorem meets_quantum_ends : (k6 (commits [] false)).ctx? 7 = some (commits [] false)
    ∧ (∀ n ∈ (commits [] false).cores, ((k6 (commits [] false)).coreAt n).qgo = false
      ∧ (k6 (commits [] false)).startable n = false ∧ ((k6 (commits [] false)).coreAt n).preempt = false)
    ∧ (k6 (commits [] false)).net = [] ∧ (commits [] false).rcb.cq = List.replicate 16 0 ∧ (k6 (commits [] false)).queueOf 0 = none :=
  ⟨by decide +kernel, by decide +kernel, rfl, rfl, by decide +kernel⟩
/-- The run of core 0 owes its frame's future, cell 0. -/
def mark0 (fu : W64) : Packet := pkt (.home 7) (.mark (spad + 0x1000) fu)
def k7 (fu : W64) : State := sent (f0.vSet (frFut frame0) 8 spad.toNat) [mark0 fu]
theorem meets_mark : First (k7 spad) (mark0 spad) [] ∧ (k7 spad).inFlight frame0 = false
    ∧ (k7 spad).ctx? 7 = some { ctx0 with freeHead := spad + 0x1100 } ∧ (k7 spad).owes frame0 = some spad.toNat
    ∧ (k7 spad).runnerOf 7 frame0 = some 0
    ∧ (k7 spad).areaWait ((k7 spad).markAreas { ctx0 with freeHead := spad + 0x1100 } frame0 spad.toNat) = false
    ∧ ∀ k ∈ (k7 spad).cordonOf 0, ((k7 spad).coreAt k).sleeps = false :=
  ⟨⟨rfl, rfl, by decide +kernel⟩, by decide +kernel, by decide +kernel, by decide +kernel, by decide +kernel, by decide +kernel, by decide +kernel⟩
theorem meets_mark_of_another : First (k7 gen0) (mark0 gen0) [] ∧ (k7 gen0).inFlight frame0 = false ∧ (k7 gen0).owes frame0 ≠ some gen0.toNat
    ∧ (k7 gen0).areaWait ((k7 gen0).markAreas { ctx0 with freeHead := spad + 0x1100 } frame0 gen0.toNat) = false :=
  ⟨⟨rfl, rfl, by decide +kernel⟩, by decide +kernel, by decide +kernel, by decide +kernel⟩
def ended0 : Ctx := { framed with ended := [spad + 0x1000] }
theorem meets_frame_return : (homeAt ended0 0 true).ctx? 7 = some ended0
    ∧ (ended0.ended.filter (fun f => decide ((homeAt ended0 0 true).vNum (frJoin f.toNat) 4 = 0)))[0]? = some (spad + 0x1000)
    ∧ (homeAt ended0 0 true).vNum (frParent frame0) 8 = 0
    ∧ (homeAt ended0 0 true).areaWait ((homeAt ended0 0 true).returnAreas ended0 frame0) = false := by decide +kernel

/-! ## Engines, links and the device -/

/-- A read stream on v28, with room for one strip. -/
def isStrip (x : StripRead) : Bool := match x with | .strip _ _ => true | _ => false
theorem meets_fetch_ahead : (bound rd0).cur.streamOf (28 + (bound rd0).ev.pick) = some rd0 ∧ rd0.write = false ∧ rd0.parked = none
    ∧ rd0.fetched.length < rd0.depth ∧ rd0.pos + rd0.fetched.length < rd0.length
    ∧ isStrip ((bound rd0).readStrip 0 (rd0.addr (rd0.pos + rd0.fetched.length))) = true :=
  ⟨by decide +kernel, rfl, rfl, by decide +kernel, by decide +kernel, by decide +kernel⟩
/-- A command that copies 8 bytes within the scratchpad; it is validated, or done, or its source is unaligned. -/
def cmd1 : CopyCmd := { cmd0 with desc := copyDesc (spad + 0x100) (spad + 0x200) 8 }
def cmd2 : CopyCmd := { cmd1 with validated := true }
def cmd3 : CopyCmd := { cmd2 with count := 8, status := some (0, 0, 0) }
def engine (k : CopyCmd) : State :=
  let s := user ctx0
  eng k ((s.vPut (spad.toNat + 0x100) [1, 2, 3, 4, 5, 6, 7, 8]).getD s)
theorem meets_validate : (engine cmd1).cmdAt 0 0 = some cmd1 ∧ cmd1.validated = false := ⟨by decide +kernel, rfl⟩
def chunkEnds (s : State) (k : CopyCmd) (f : List Byte → Option EngStop → Bool) : Bool :=
  match s.chunkRead (k.core s.cur) k k.chunk.1 (k.chunk.2.2 / 4) [] with | (bs, e) => f bs e
/-- A chunk's read has crossed its link. -/
def hasRead (s : State) (k : CopyCmd) : State := { s with links := s.linksAfter (s.locsOf k.chunk.1 4) true }
def writeEnds (s : State) (k : CopyCmd) (bs : List Byte) (f : Except EngStop Bool → Bool) : Bool :=
  f ((s.chunkWrite (k.core s.cur) k.comb k.chunk.2.1 (wordsOf bs)).map (fun _ => true))
def going (s : State) (k : CopyCmd) : Prop :=
  s.cmdAt 0 0 = some k ∧ k.validated = true ∧ k.status = none ∧ k.waiting = false ∧ k.parked = none
    ∧ s.ticketTurn k.handle k.ticket = true ∧ k.held = [] ∧ k.buf = [] ∧ k.put = 0 ∧ s.ev.ok = false ∧ 0 < k.chunk.2.2
    ∧ s.detCtx k.ctx = false ∧ contribOf k.chunk.2.1 = none
theorem meets_chunk : going (engine cmd2) cmd2 ∧ chunkEnds (engine cmd2) cmd2 (fun bs e => e.isNone
    && !((engine cmd2).locsOf cmd2.chunk.2.1 bs.length).any (hasRead (engine cmd2) cmd2).blockedPlace
    && writeEnds (hasRead (engine cmd2) cmd2) cmd2 bs (fun e => match e with | .ok _ => true | _ => false)) = true := by
  unfold going; decide +kernel
/-- A source, or a destination, that is nowhere. -/
def cmd4 : CopyCmd := { cmd2 with desc := copyDesc hole (spad + 0x200) 8 }
def cmd7 : CopyCmd := { cmd2 with desc := copyDesc (spad + 0x100) hole 8 }
def faultsAt (e : EngStop) (a : W64) : Bool := match e with | .fault code b => decide (code = cBadAddress) && decide (b = a) | _ => false
theorem meets_chunk_fault : going (engine cmd4) cmd4
    ∧ chunkEnds (engine cmd4) cmd4 (fun _ e => match e with | some e => faultsAt e hole | none => false) = true := by
  unfold going; decide +kernel
theorem meets_chunk_write_fault : going (engine cmd7) cmd7 ∧ chunkEnds (engine cmd7) cmd7 (fun bs e => e.isNone
    && !((engine cmd7).locsOf cmd7.chunk.2.1 bs.length).any (hasRead (engine cmd7) cmd7).blockedPlace
    && writeEnds (hasRead (engine cmd7) cmd7) cmd7 bs (fun e => match e with | .error e => faultsAt e hole | _ => false)) = true := by
  unfold going; decide +kernel
/-- The same with a signal doubleword. -/
def cmd5 : CopyCmd :=
  { cmd3 with desc := BitVec.ofNat 1024 ((copyDesc (spad + 0x100) (spad + 0x200) 8).toNat + (spad.toNat + 0x300) * 2 ^ 128 + 9 * 2 ^ 192) }
theorem meets_copy_done : (engine cmd3).cmdAt 0 0 = some cmd3 ∧ cmd3.status = some (0, 0, 0) ∧ (engine cmd3).detCtx 7 = false ∧ cmd3.siga = 0
    ∧ (engine cmd5).cmdAt 0 0 = some cmd5 ∧ cmd5.siga ≠ 0 ∧ (engine cmd5).areaWait [(cmd5.siga, 8)] = false
    ∧ ((engine cmd5).vPut cmd5.siga (toBytes 8 cmd5.sigv)).isSome = true := by decide +kernel
/-- A contribution of one integer to group 3, seq 5, that waits; the group is active with devices 0 and 1. -/
def cmd6 : CopyCmd :=
  { cmd2 with count := 4, waiting := true, held := (List.range 4).zip [1, 0, 0, 0] |>.map (fun e =>
      (0x00FE_4000_0000_0000 + 3 * 2 ^ 28 + 5 * 2 ^ 16 + e.1, e.2)) }
def redGroup : RedCfg := { ctrl := 0x8000_0000_0002_0200, rbase := spad + 0x400, mlist := spad, state := 2, base := spad + 0x400, list := [0, 1] }
def reducing : State := withEv { engine cmd6 with redcfg := [(3, redGroup)] } 0 0 0 [2, 0, 0, 0] true
theorem meets_reduction_alone : reducing.cores = [(0, reducing.cur)] := rfl
theorem meets_reduction : reducing.cmdAt 0 0 = some cmd6 ∧ cmd6.places = (3, 5, 0) :: [(3, 5, 1), (3, 5, 2), (3, 5, 3)] ∧ cmd6.waiting = true
    ∧ reducing.ev.ok = true ∧ (reducing.group 3).state = 2 ∧ (∀ p ∈ cmd6.places, p.1 = 3 ∧ p.2.1 = 5)
    ∧ reducing.cur.copyq.length = 1
    ∧ reducing.ev.data.length = ((reducing.group 3).list.length - 1) * (cmd6.held.filter contrib).length
    ∧ (cmd6.held.filter contrib).length % 4 = 0
    ∧ reducing.areaWait (cmd6.places.map (fun e => ((reducing.group 3).base.toNat + e.2.2, 1))) = false := by decide +kernel
/-- A task record of one INT8 row and column of depth 2. -/
def rec1 : BitVec 1024 := BitVec.ofNat 1024
  (4 + 2 * 2 ^ 16 + 2 ^ 32 + 2 ^ 40 + 2 * 2 ^ 48 + (spad.toNat + 0x100) * 2 ^ 64 + (spad.toNat + 0x104) * 2 ^ 128 + (spad.toNat + 0x200) * 2 ^ 192)
def task1 : TileTask :=
  { record := rec1, ta := 0, tb := 0, poster := 0, level := 0, ctx := 7, vint := 5, cell := spad, handle := none, ticket := none, after := [],
    status := .waiting, marked := false, out := none, begun := false, parked := none, at_ := 0 }
def posted (k : TileTask) : State :=
  { f0 with tiles := [(0, [k])], mem := (f0.vPut (spad.toNat + 0x100) [2, 3, 0, 0, 5, 0xFF]).map (·.mem) |>.getD [] }
theorem meets_task_issue : (posted task1).nextTask 0 = some (0, task1) ∧ (posted task1).depFailed task1 = false
    ∧ (posted task1).freePress 0 = some 0 := by decide +kernel
/-- A task that depends on the failed future. -/
def task2 : TileTask := { task1 with record := BitVec.ofNat 1024 (rec1.toNat + (spad.toNat + 64) * 2 ^ (8 * 0x48)) }
theorem meets_task_fails : (posted task2).nextTask 0 = some (0, task2) ∧ (posted task2).depFailed task2 = true := by decide +kernel
def task3 : TileTask := { task1 with status := .issued 0 }
def tileRuns (s : State) (k : TileTask) : Bool :=
  match s.tileOperands k with
  | .ok x => (match s.tileWrite (k.core (s.coreAt k.poster)) false (tileBytes k x).length (tileBytes k x) with
    | (_, [], none) => true
    | _ => false)
  | _ => false
def task4 : TileTask := { task1 with status := .done 3 0 2 0 }
def task5 : TileTask := { task3 with marked := true }
/-- A task whose tile has an element to write, and one whose tile is written. -/
def task6 : TileTask := { task3 with out := some (0, [(spad + 0x200, [1, 2, 3, 4])]) }
def task7 : TileTask := { task3 with out := some (0, []), begun := true }
theorem meets_task_done : ((posted task3).tasks 0)[0]? = some task3 ∧ (posted task3).detCtx 7 = false
    ∧ ((posted task4).tasks 0)[0]? = some task4 ∧ (posted task4).areaWait ((posted task4).tileUse task4) = false
    ∧ (posted task3).areaWait ((posted task3).tileUse task3) = false ∧ ((posted task7).tasks 0)[0]? = some task7
    ∧ (posted task7).areaWait ((posted task7).tileUse task7) = false := by decide +kernel
theorem meets_task_element : ((posted task6).tasks 0)[0]? = some task6 ∧ task6.begun = false
    ∧ ((posted task6).locsOf (spad + 0x200) 4).any (posted task6).blockedPlace = false
    ∧ (match (posted task6).engWrite (task6.core ((posted task6).coreAt 0)) (spad.toNat + 0x200) [1, 2, 3, 4] with
      | .ok _ => true | _ => false) = true := by decide +kernel
theorem meets_task_runs : tileRuns (posted task3) task3 = true := by decide +kernel
theorem meets_task_waits : (withEv (posted task3) 0 0 0 [] true).ev.ok = true
    ∧ (match (withEv (posted task3) 0 0 0 [] true).tileOperands task3 with | .ok _ => true | _ => false) = true := by decide +kernel
theorem meets_task_marked : ((posted task5).tasks 0)[0]? = some task5
    ∧ (posted task5).detCtx 7 = false ∧ (posted task5).areaWait ((posted task5).tileUse task5) = false ∧ ∀ st c10 fc fa, task3.status ≠ .done st c10 fc fa :=
  ⟨by decide +kernel, by decide +kernel, by decide +kernel, (fun _ _ _ _ h => by cases h)⟩
theorem meets_press : task1.cout = 2 ∧ task1.mode = 4 ∧ task1.depth = 2
    ∧ pressElem task1 [2, 3] [5, 0xFF] [] [] 0 = 7 := by decide +kernel
def linkBusy (n : Nat) : State := withEv { State.reset with links := [(18, { Link.reset with count := n })] } 0 18 0 [] false
theorem meets_links : (linkBusy (2 ^ 48)).ev.pick < 19 ∧ 2 ^ 47 ≤ ((linkBusy (2 ^ 48)).linkAt 18).count
    ∧ 2 ^ 48 ≤ ((linkBusy (2 ^ 48)).linkAt 18).count := by decide +kernel
/-- A store of `v` to a device register, accepted. -/
def regs1 (off : Nat) (v : W64) : State :=
  on { State.reset with ev := Ev.none } (fun c => { c with mem := [{ store2 with
    addr := BitVec.ofNat 64 (0x00FE_0000_0000_0000 + off), bytes := [], data := toBytes 8 v.toNat }] })
def storesAt (s : State) (off : Nat) (v : W64) : Bool :=
  match s.regStore with | some (_, o, w) => decide (o = off) && decide (w = v) | none => false
def isRed (r : RegWrite) (g f : Nat) : Bool := match r with | .redcfg a b => decide (a = g) && decide (b = f) | _ => false
theorem meets_group_write : storesAt (regs1 0x6_0000_0068 0x1234) 0x6_0000_0068 0x1234 = true
    ∧ isRed ((regs1 0x6_0000_0068 0x1234).regWrite 0x6_0000_0068 0x1234) 3 1 = true
    ∧ isRed (State.reset.regWrite 0x6_0000_0070 0x1234) 3 2 = true ∧ isRed (State.reset.regWrite 0x6_0000_0060 0x1234) 3 0 = true
    ∧ (0x1234 : W64).getLsbD 63 = false
    ∧ ({ State.reset with redcfg := [(3, redGroup)] } : State).areaWait [(redGroup.mlist.toNat, 4 * 2)] = false := by decide +kernel
def registering : State := withEv State.reset 0 3 1 ([0, 2] ++ toBytes 4 0 ++ toBytes 4 1) true
theorem meets_registration : registering.ev.pick < 1024 ∧ registering.ev.val.toNat < 2 ^ 14 ∧ registering.ev.val.toNat ≠ registering.devid := by
  decide

theorem meets_register_write : storesAt (regs1 0x2_0000_0010 5) 0x2_0000_0010 5 = true
    ∧ (match (regs1 0x2_0000_0010 5).regWrite 0x2_0000_0010 5 with | .plain _ => true | _ => false) = true := by decide +kernel
theorem meets_lifecycle : storesAt (regs1 0x3_0000_0000 1) 0x3_0000_0000 1 = true
    ∧ (match State.reset.regWrite 0x3_0000_0000 1 with | .lcstate => true | _ => false) = true
    ∧ (1 : W64).toNat % 4 = (regs1 0x3_0000_0000 1).lcstate.toNat + 1 ∧ (3 : W64).toNat % 4 ≠ (regs1 0x3_0000_0000 3).lcstate.toNat + 1 := by
  decide
def isoVal : W64 := 0x8000_0000_0000_0140
theorem meets_isolate : storesAt (regs1 0x4_0000_0000 isoVal) 0x4_0000_0000 isoVal = true
    ∧ (match State.reset.regWrite 0x4_0000_0000 isoVal with | .isolate => true | _ => false) = true
    ∧ isoVal.getLsbD 63 = true ∧ dieOf 0 * 32 + (isoVal.extractLsb' 6 5).toNat = 5 ∧ (regs1 0x4_0000_0000 isoVal).mayIsolate 5 = true
    ∧ 5 ∉ (regs1 0x4_0000_0000 isoVal).isolated
    ∧ ({ regs1 0x4_0000_0000 isoVal with queues := [(5 * 1024, { q3 with base := 0 })] } : State).mayIsolate 5 = false := by decide +kernel
/-- Supergroup 5 is isolated; or its cores are in reset as well. -/
def iso5 : State := withEv { State.reset with isolated := [5], mem := [(keyOf spSpad (5 * 2 ^ 22 + 3), 9)] } 0 5 0 [] true
def iso6 : State := { iso5 with cores := (List.range 64).map (fun j => (320 + j, { Core.reset with run := .inReset })) }
theorem meets_isolated : iso5.ev.pick ∈ iso5.isolated ∧ iso6.ev.pick ∈ iso6.isolated
    ∧ (iso6.repaired.filter (fun x => decide (x / 32 = 5 / 32))).length < 2 := by decide +kernel
theorem inReset6 : ∀ m, m / 64 = 5 → (iso6.coreAt m).run = .inReset := by
  intro m h
  have h : m = 320 + m % 64 := by omega
  rw [h]
  exact (by decide +kernel : ∀ j < 64, (iso6.coreAt (320 + j)).run = .inReset) (m % 64) (by omega)
def hostAt (pick : Nat) (data : List Byte) : State := withEv State.reset 0 pick (spad + 3) data true
theorem meets_host : (hostAt 1 [7]).window (hostAt 1 [7]).ev.val = .spad 0 0 0 0x1003
    ∧ (hostAt 1 [7]).blockedPlace ((hostAt 1 [7]).locate (spad + 3)) = false ∧ (hostAt 1 [7]).ev.data = [7] ∧ 0 = (hostAt 1 [7]).devid
    ∧ (hostAt 1 [7]).hostCheck .store (spad + 3) = none
    ∧ (hostAt 1 [7]).directKey ((hostAt 1 [7]).locate (spad + 3)) / 4 * 4 ∉ (hostAt 1 [7]).bad := by decide +kernel
def scrubbing (a : BitVec 56) : State :=
  { State.reset with mem := [(key0, 9), (key0 + 70, 8)], scrubBusy := true, scrubCur := a, scrubEnd := a + 64 }
theorem meets_scrub_line : (scrubbing 0xF8_0000_0000_1000).scrubBusy = true
    ∧ (scrubbing 0xF8_0000_0000_1000).window ((scrubbing 0xF8_0000_0000_1000).scrubCur.setWidth 64) = .spad 0 0 0 0x1000
    ∧ (scrubbing 0xF1_0000_0000_0000).window ((scrubbing 0xF1_0000_0000_0000).scrubCur.setWidth 64) = .none := by decide +kernel
/-- Device 1 adds 3 to a doubleword of core 0's scratchpad, over link 2 with tag 6. -/
def fabric (data : List Byte) (ok : Bool) : State := withEv { State.reset with mem := [(key0, 9)] } 2 (2 ^ 16 + 6) spad data ok
def addReq : List Byte := [2, 8] ++ toBytes 8 3
def readsOk (x : ReadEnd) (f : List Byte → State → Bool) : Bool := match x with | .ok bs u => f bs u | _ => false
theorem meets_fabric : (fabric addReq false).window spad = .spad 0 (fabric addReq false).devid 0 0x1000 ∧ 0 < (fabric addReq false).ncores
    ∧ fieldAt (fabric addReq false).ev.data 0 1 = 2 ∧ fieldAt (fabric addReq false).ev.data 1 1 = 8 ∧ spad.toNat % 8 = 0
    ∧ (fabric addReq false).ev.ok = false ∧ (fabric addReq false).replayCache = []
    ∧ readsOk ((fabric addReq false).readLocs ((fabric addReq false).locsOf spad 8) .bypass none) (fun bs _ =>
        readsOk ((fabric addReq false).writeLocs ((fabric addReq false).locsOf spad 8) (toBytes 8 (amoNew 0 (BitVec.ofNat 64 (ofBytes bs))
          3 0).toNat) .bypass none) (fun b _ => b.isEmpty)) = true := by decide +kernel
theorem meets_fabric_plain : fieldAt (fabric [0, 4] true).ev.data 0 1 = 0 ∧ fieldAt (fabric [1, 4, 1, 2, 3, 4] true).ev.data 0 1 = 1
    ∧ readsOk ((fabric [0, 4] true).readLocs ((fabric [0, 4] true).locsOf spad 4) .bypass none) (fun _ _ => true) = true
    ∧ readsOk ((fabric [0, 4] true).writeLocs ((fabric [0, 4] true).locsOf spad 4) [1, 2, 3, 4] .bypass none) (fun _ _ => true) = true := by
  decide
def fabricPaged : State :=
  withEv { pf with cache := [(0x100, { pa := 0x8000, data := 5, dirty := false, hint := .default, l1 := none, bad := 0 })] } 2 0 0x4000 [0, 4] true
theorem meets_fabric_paged : fabricPaged.window fabricPaged.ev.val = .paged ∧ fabricPaged.lineDev 0x4000 = none
    ∧ readsOk (fabricPaged.readLocs (fabricPaged.locsOf 0x4000 4) .bypass none) (fun _ _ => true) = true := by decide +kernel
theorem meets_fabric_again : ({ fabric addReq true with replayCache := [(1, 2, 6, 9)] } : State).replayCache = (1, 2, 6, 9) :: []
    ∧ 1 = (2 ^ 16 + 6) / 2 ^ 16 ∧ 6 = (2 ^ 16 + 6) % 2 ^ 16 ∧ (fabric addReq true).ev.ok = true := by decide +kernel

/-! ## Levels, resets and the step -/

theorem meets_level : levelSpec .tret 1 ∧ u1.cur.pl < 1 ∧ fieldsOk .tret = true ∧ stateOk u1.cur .tret = true ∧ u1.cur.uncleared = false :=
  ⟨rfl, by decide +kernel, by decide +kernel, by decide +kernel, by decide +kernel⟩
theorem meets_machine_level : levelSpec (.kload 1 2 3) 2 ∧ fieldsOk (.kload 1 2 3) = true ∧ (on u1 (fun c => { c with pl := 1 })).cur.pl < 2 :=
  ⟨rfl, by decide +kernel, by decide +kernel⟩
theorem meets_resets : (Instr.coldReset = .coldReset ∨ Instr.coldReset = .warmReset) ∧ (Instr.warmReset = .coldReset ∨ Instr.warmReset = .warmReset) :=
  ⟨.inl rfl, .inr rfl⟩
def goesOn (x : Host.Outcome State Fault Refusal) : Bool := match x with | .next _ => true | _ => false
theorem meets_invariant : goesOn (step State.reset) = true ∧ Memory.wf State.reset.mem = true ∧ State.reset.cores = [] := by decide +kernel

/-- A word decodes to an instruction with its L and S. -/
def reads (w : W32) (d : Decoded) : Bool := match decodeWord w with | .ok e => decide (e = d) | .error _ => false
/-- A word does not decode, for this reason. -/
def rejects (w : W32) (r : Reject) : Bool := match decodeWord w with | .ok _ => false | .error e => decide (e = r)
/-- The turn is core 0's slot; the bundle at its PC is a lone one, and word 1 of it comes next. -/
def lone0 : State := State.reset.withFetchWord 32 0x48173400
def bare (s : State) : State := { s with agenda := [] }
/-- The bundle that core 0 fetches when its slot comes. -/
def fetched (s : State) : Option (W64 × State) :=
  let s1 := ({ bare s with ev := Ev.none }.advanceTo s.cur.ready).divideDue 0
  let addr := s.cur.t.pc &&& ~~~(7 : W64)
  if s1.offNow ((List.range 8).map (fun i => s1.locate (addr + BitVec.ofNat 64 i))) || (s1.walkTarget 0 addr none).isSome then none
  else match s1.fetch 0 addr with | .bundle b u => some (b, u) | _ => none
theorem meets_turn : lone0.turn = ({ act := .slot, ev := Ev.none }, bare lone0) := rfl
theorem meets_slot : 0 < (bare lone0).ncores ∧ (bare lone0).firmware = true
    ∧ (bare lone0).cur.run = .running ∧ (bare lone0).cur.fpark = none ∧ (bare lone0).cur.gpark = none ∧ (bare lone0).cur.preempt = false
    ∧ (bare lone0).cur.leader = none ∧ (bare lone0).cur.members = [] ∧ ({ bare lone0 with ev := Ev.none } : State).quantumOpen 0 = true
    ∧ ({ bare lone0 with ev := Ev.none } : State).landNext 0 false = none
    ∧ (fetched lone0).map (fun e => slotKind lone0.cur.t.pc e.1) = some (.lone 0xC000_0000 0x48173400) ∧ lone0.cur.t.pc.getLsbD 2 = true
    ∧ reads 0x48173400 ⟨0, 1, .add 14 13 0⟩ = true := by decide +kernel
/-- The same with another bundle, at its start, and core 0 changed. -/
def pairOf (b : W64) (f : Core → Core) : State :=
  let mem := Memory.writeAll [] ((List.range 8).map (keyOf spSpad)) (toBytes 8 b.toNat)
  { lone0 with
    cores := (lone0.modCore 0 (fun c => f { c with
      t := { c.t with pc := 0x00F8_0000_0000_0000 }, code := some { lone0.codeView with mem := mem } })).cores
    mem := mem }
/-- What a word leaves, with the end of its slot. -/
def slotOf (x : Host.Outcome State Fault Refusal) (f : State → SlotEnd → Bool) : Bool :=
  match x with | .next r => f r (r.coreAt 0).slot | _ => false
/-- The words of a pair pass their checks, pop nothing, and end as `f` says: word 0, word 1, and word 0 after word 1. -/
def pairEnds (s : State) (w0 w1 : W32) (i0 i1 : Instr) (f : SlotEnd → SlotEnd → SlotEnd → State → Issue → Bool) : Bool :=
  match fetched s with
  | none => false
  | some (b, u) =>
    let addr := s.cur.t.pc &&& ~~~(7 : W64)
    let stall := max (wordS w0).toNat (wordS w1).toNat
    let iss0 := issueOf (u.coreAt 0) addr (addr + 8) false false w0 stall
    let iss1 := issueOf (u.coreAt 0) addr (addr + 8) true false w1 stall
    decide (slotKind s.cur.t.pc b = .pair w0 w1) && decide ((u.coreAt 0).popsOf i0 = [])
      && (match pairCheck u 0 iss0, pairCheck u 0 iss1 with | .ok a, .ok b => decide (a = i0) && decide (b = i1) | _, _ => false)
      && slotOf (exec i0 (u.withIssue 0 iss0)) (fun _ e0 => slotOf (exec i1 (u.withIssue 0 iss1)) (fun r1 e1 =>
        slotOf (exec i0 (r1.withIssue 0 iss0)) (fun _ e2 => f e0 e1 e2 r1 iss0)))
/-- `ld.w` and `add`. -/
def pair0 : State := pairOf 0x48173400_01459008 (withRegs [(4, spad)])
theorem meets_pair_slot : pair0.turn = ({ act := .slot, ev := Ev.none }, bare pair0) := rfl
theorem meets_pair : pairEnds pair0 0x01459008 0x48173400 (.ldW 11 4 0 .plain .dev .default) (.add 14 13 0)
    (fun e0 e1 e2 _ _ => decide (e0 = .done) && decide (e1 = .done) && decide (e2 = .done)) = true := by decide +kernel
/-- `ld.w` of no address traps. -/
theorem meets_pair_trap : pairEnds (pairOf 0x48173400_01459008 (withRegs [(4, hole)])) 0x01459008 0x48173400
    (.ldW 11 4 0 .plain .dev .default) (.add 14 13 0) (fun e0 _ _ _ _ => decide (e0 = .trapped)) = true := by decide +kernel
/-- `trap` and a word that pushes a stream: the strip is stored before the trap is taken. -/
def trapPush : State :=
  pairOf 0x6D0E0040_28B00005 (fun c => { c with pl := 1, t := { c.t with streams := c.t.streams.set 0 (some wr0) } })
theorem meets_pair_push : reads 0x28B00005 ⟨0, 5, .trap 5⟩ = true ∧ reads 0x6D0E0040 ⟨0, 5, .vadd 28 0 2 0 0⟩ = true
    ∧ pairEnds trapPush 0x28B00005 0x6D0E0040 (.trap 5) (.vadd 28 0 2 0 0) (fun e0 e1 e2 r1 iss0 =>
        decide (e0 = .trapped) && decide (e1 = .done) && decide (e2 = .waiting)
          && (match r1.pushNow 0 with
            | some (.ok _ r2) => slotOf (exec (.trap 5) (r2.withIssue 0 iss0)) (fun _ e => decide (e = .trapped))
            | _ => false)) = true := by decide +kernel

/-! ## What the checks of a word's fields refuse -/

/-- Each check of `fieldsOk`, broken by one term. -/
theorem test_ill_formed : ∀ i ∈ ([.cmpp 1 2 3 3 0, .cmpp 1 2 3 0 6, .fadd 1 2 3 .f64 6, .fsub 1 2 3 .f32 7, .fmul 1 2 3 .bf16 6, .fdiv 1 2 3 .f16 7,
      .fma 1 2 3 .f64 6, .fms 1 2 3 .f64 7, .fnma 1 2 3 .f64 6, .fnms 1 2 3 .f64 7, .fsqrt 1 2 .f64 6, .fcvtIf 1 2 .f64 7,
      .fcvtFi 1 2 .f64 6, .fcvtFf 1 2 3 .f32 .f64 6, .fcvtFf 1 2 3 .f64 .f32 7, .csrr 1 0x015, .csrr 1 0x107, .csrr 1 0x202, .csrw 1 0x0FF,
      .csrx 1 2 0x1FF, .ldB 1 2 0 .rel .dev .default, .ldBz 1 2 0 .acqrel .dev .default, .ldH 1 2 0 .rel .dev .default,
      .ldHz 1 2 0 .rel .dev .default, .ldW 1 2 0 .rel .dev .default, .ldWz 1 2 0 .rel .dev .default, .ldD 1 2 0 .acqrel .dev .default,
      .waita 1 2 0 .rel .dev .default, .vld 1 2 0 .rel .dev .default, .stB 1 2 0 .acq .dev .default, .stH 1 2 0 .acq .dev .default,
      .stW 1 2 0 .acqrel .dev .default, .stD 1 2 0 .acq .dev .default, .vst 1 2 0 .acq .dev .default, .pref 1 0 .acq .dev .default,
      .cas 31 2 0 .plain .dev .default, .hnew 0 .dev, .hfork 0 1 .dev, .hfork 3 3 .dev, .hfree 0, .send 1 2 27 0 0, .send 1 2 3 0 1,
      .qenq 1 2 27 0 0, .qenq 1 2 20 0 1, .mcst 1 2 27 0 0, .mcst 1 2 4 0 1, .ibpop 26 2, .qdeq 26 2 3, .qtry 27 2 3, .qnew 1 2 3,
      .qnew 1 2 21, .rackb 1 2 3, .bar 1 2 3, .spawn 3 2 4 0 0, .spawn 20 2 4 0 0, .spawn 4 2 27 0 0, .fget 1 3 0, .fget 1 16 0,
      .fref 4 5 3, .fref 3 5 0, .fref 20 5 2, .cordon 1 0, .cordon 1 17, .ttpost 3 2 1 0, .ttpost 20 2 1 0, .vmovp 8 1 0 0, .vmovp 1 8 1 0,
      .caskopen 0, .caskseal 0, .errinj 1 2 5, .linkkey 1 2 19] : List Instr), fieldsOk i = false := by decide +kernel
/-- The values beside them pass, and a step that no word encodes is no well-formed word. -/
theorem test_well_formed : (∀ i ∈ ([.cmpp 1 2 3 2 5, .fadd 1 2 3 .f64 5, .fcvtFf 1 2 3 .f64 .f32 6, .csrr 1 0x014, .csrr 1 0x106, .csrr 1 0x201,
      .ldB 1 2 0 .acq .dev .default, .stB 1 2 0 .rel .dev .default, .cas 30 2 0 .acqrel .dev .default, .hfork 3 2 .dev, .send 1 2 19 0 1,
      .send 1 2 26 0 0, .ibpop 25 2, .qnew 1 2 20, .bar 1 2 2, .spawn 19 2 26 0 0, .fget 1 15 0, .fref 3 5 1, .cordon 1 16, .ttpost 4 2 1 0,
      .vmovp 7 31 0 0, .vmovp 31 7 1 0, .caskopen 3, .errinj 1 2 4, .linkkey 1 2 18] : List Instr), wellFormed i = true)
    ∧ wellFormed .coldReset = false := by decide +kernel

/-! ## What words decode to: one word of each row, its bits laid out by the spec's encoding tables -/

theorem test_decode_nop_to_srai : ∀ e ∈ ([
      (0x08000000, ⟨0, 1, .nop⟩), (0xD0000000, ⟨1, 2, .nopA⟩), (0x5816D360, ⟨0, 3, .add 13 20 27⟩),
      (0xE0296420, ⟨1, 4, .sub 18 25 1⟩), (0x683BFB69, ⟨0, 5, .addi 23 30 873⟩), (0xF04E0D40, ⟨1, 6, .mul 28 3 10⟩),
      (0x7850A1E0, ⟨0, 7, .mulh 1 8 15⟩), (0xC8633680, ⟨1, 1, .mulhu 6 13 20⟩), (0x5075CB20, ⟨0, 2, .div 11 18 25⟩),
      (0xD8885FC0, ⟨1, 3, .divu 16 23 30⟩), (0x609AF060, ⟨0, 4, .rem 21 28 3⟩), (0xE8AD0500, ⟨1, 5, .remu 26 1 8⟩),
      (0x70BF99A0, ⟨0, 6, .and 31 6 13⟩), (0xF8C22E40, ⟨1, 7, .or 4 11 18⟩), (0x48D4C2E0, ⟨0, 1, .xor 9 16 23⟩),
      (0xD0E75780, ⟨1, 2, .andn 14 21 28⟩), (0x58F9EA15, ⟨0, 3, .andi 19 26 533⟩), (0xE10C7ECF, ⟨1, 4, .ori 24 31 719⟩),
      (0x691E9387, ⟨0, 5, .xori 29 4 903⟩), (0xF1212600, ⟨1, 6, .shl 2 9 16⟩), (0x7933BAA0, ⟨0, 7, .shr 7 14 21⟩),
      (0xC9464F40, ⟨1, 1, .sra 12 19 26⟩), (0x5158E26B, ⟨0, 2, .shli 17 24 619⟩), (0xD96B7725, ⟨1, 3, .shri 22 29 805⟩),
      (0x617D8BDD, ⟨0, 4, .srai 27 2 989⟩)] : List (W32 × Decoded)),
    reads e.1 e.2 = true := by decide +kernel

theorem test_decode_rot_to_fmul : ∀ e ∈ ([
      (0xE9809DC0, ⟨1, 5, .rot 1 7 14⟩), (0x7192B34F, ⟨0, 6, .roti 5 12 847⟩), (0xF9A54400, ⟨1, 7, .clz 10 17⟩),
      (0x49B7D800, ⟨0, 1, .ctz 15 22⟩), (0xD1CA6C00, ⟨1, 2, .popc 20 27⟩), (0x59DC84E0, ⟨0, 3, .min 25 1 7⟩),
      (0xE1EF1580, ⟨1, 4, .max 30 5 12⟩), (0x69F1AA20, ⟨0, 5, .minu 3 10 17⟩), (0xF2043EC0, ⟨1, 6, .maxu 8 15 22⟩),
      (0x7A16D362, ⟨0, 7, .sel 13 20 27 2⟩), (0xCA296420, ⟨1, 1, .cmpEq 18 25 1⟩), (0x523BF8A0, ⟨0, 2, .cmpNe 23 30 5⟩),
      (0xDA4E0D40, ⟨1, 3, .cmpLt 28 3 10⟩), (0x6250A1E0, ⟨0, 4, .cmpLtu 1 8 15⟩), (0xEA633680, ⟨1, 5, .cmpLe 6 13 20⟩),
      (0x7275CB20, ⟨0, 6, .cmpLeu 11 18 25⟩), (0xFA80DFD4, ⟨1, 7, .cmpp 1 23 30 2 4⟩), (0x4A9ADED5, ⟨0, 1, .movi 21 24277⟩),
      (0xD2AD5F8D, ⟨1, 2, .movs 26 24461⟩), (0x5ABF99B4, ⟨0, 3, .addsh 31 6 13 20⟩), (0xE2C22E41, ⟨1, 4, .bfx 4 11 18 1⟩),
      (0x6AD4C2E0, ⟨0, 5, .bfi 9 16 23⟩), (0xF307579A, ⟨1, 6, .fadd 14 21 28 .f16 2⟩), (0x7B19E837, ⟨0, 7, .fsub 19 26 1 .bf16 7⟩),
      (0xCB2C7CCC, ⟨1, 1, .fmul 24 31 6 .f32 4⟩)] : List (W32 × Decoded)),
    reads e.1 e.2 = true := by decide +kernel

theorem test_decode_fdiv_to_vrsqrt : ∀ e ∈ ([
      (0x533E9171, ⟨0, 2, .fdiv 29 4 11 .bf16 1⟩), (0xDB41240F, ⟨1, 3, .fsqrt 2 9 .f32 7⟩),
      (0x6353BAA8, ⟨0, 4, .fmin 7 14 21 .f32⟩), (0xEB664F48, ⟨1, 5, .fmax 12 19 26 .f32⟩),
      (0x7378E3F5, ⟨0, 6, .fma 17 24 31 .bf16 5⟩), (0xFB8B749A, ⟨1, 7, .fms 22 29 4 .f16 2⟩),
      (0x4B9D892F, ⟨0, 1, .fnma 27 2 9 .f32 7⟩), (0xD3A09DD4, ⟨1, 2, .fnms 1 7 14 .bf16 4⟩),
      (0x5BB2B270, ⟨0, 3, .fcmp 5 12 19 .bf16⟩), (0xE3C54408, ⟨1, 4, .fclass 10 17 .f32⟩),
      (0x6BD7DBA8, ⟨0, 5, .fsgnj 15 22 29 .f32⟩), (0xF3EA6C48, ⟨1, 6, .fsgnn 20 27 2 .f32⟩),
      (0x7BFC84F0, ⟨0, 7, .fsgnx 25 1 7 .bf16⟩), (0xCC0F140B, ⟨1, 1, .fcvtIf 30 5 .f32 3⟩),
      (0x5411A80A, ⟨0, 2, .fcvtFi 3 10 .f32 2⟩), (0xDC243CDC, ⟨1, 3, .fcvtFf 8 15 1 .bf16 .f16 4⟩),
      (0x6436D370, ⟨0, 4, .fmvx 13 20 27 .bf16⟩), (0xED09643E, ⟨1, 5, .vadd 18 25 1 7 2⟩), (0x751BF8B3, ⟨0, 6, .vsub 23 30 5 4 3⟩),
      (0xFD2E0D46, ⟨1, 7, .vmul 28 3 10 1 2⟩), (0x4D30A1FA, ⟨0, 1, .vfma 1 8 15 6 2⟩), (0xD543368E, ⟨1, 2, .vfms 6 13 20 3 2⟩),
      (0x5D55CB27, ⟨0, 3, .vfnma 11 18 25 1 3⟩), (0xE5685C19, ⟨1, 4, .vrcp 16 23 6 1⟩), (0x6D7AF00E, ⟨0, 5, .vrsqrt 21 28 3 2⟩)] : List (W32 × Decoded)),
    reads e.1 e.2 = true := by decide +kernel

theorem test_decode_vexp2_to_vred_add : ∀ e ∈ ([
      (0xF58D040B, ⟨1, 6, .vexp2 26 1 2 3⟩), (0x7D9F99B3, ⟨0, 7, .vmin 31 6 13 4 3⟩), (0xCDA22E46, ⟨1, 1, .vmax 4 11 18 1 2⟩),
      (0x55B4C01E, ⟨0, 2, .vabs 9 16 7 2⟩), (0xDDC75413, ⟨1, 3, .vneg 14 21 4 3⟩), (0x65D9E82B, ⟨0, 4, .vand 19 26 1 2 3⟩),
      (0xEDEC7CD5, ⟨1, 5, .vor 24 31 6 5 1⟩), (0x75FE9169, ⟨0, 6, .vxor 29 4 11 2 1⟩), (0xFE01261F, ⟨1, 7, .vandn 2 9 16 7 3⟩),
      (0x4E13BAB3, ⟨0, 1, .vshl 7 14 21 4 3⟩), (0xD6264F46, ⟨1, 2, .vshr 12 19 26 1 2⟩), (0x5E38E3F9, ⟨0, 3, .vsra 17 24 31 6 1⟩),
      (0xE64B748E, ⟨1, 4, .vshli 22 29 4 3 2⟩), (0x6E5D8927, ⟨0, 5, .vshri 27 2 9 1 3⟩), (0xF6609DD6, ⟨1, 6, .vsrai 1 7 14 5 2⟩),
      (0x7E72B269, ⟨0, 7, .vceq 5 12 19 2 1⟩), (0xCE81471F, ⟨1, 1, .vcne 2 17 24 7 3⟩), (0x5693DBB3, ⟨0, 2, .vclt 7 22 29 4 3⟩),
      (0xDEA26C47, ⟨1, 3, .vcle 4 27 2 1 3⟩), (0x66BC84FA, ⟨0, 4, .vsel 25 1 7 6 2⟩), (0xEECF158E, ⟨1, 5, .vperm 30 5 12 3 2⟩),
      (0x76D1A806, ⟨0, 6, .vbcast 3 10 1 2⟩), (0xFEE43EC1, ⟨1, 7, .vext 8 15 22 1⟩), (0x4EF6D362, ⟨0, 1, .vins 13 20 27 2⟩),
      (0xD7096407, ⟨1, 2, .vredAdd 18 25 1 3⟩)] : List (W32 × Decoded)),
    reads e.1 e.2 = true := by decide +kernel

theorem test_decode_vred_max_to_tret : ∀ e ∈ ([
      (0x5F1BF815, ⟨0, 3, .vredMax 23 30 5 1⟩), (0xE72E0C09, ⟨1, 4, .vredMin 28 3 2 1⟩), (0x6F30A01E, ⟨0, 5, .vredOr 1 8 7 2⟩),
      (0xF743366A, ⟨1, 6, .vcvt 6 13 1 3 2 2⟩), (0x7F55C822, ⟨0, 7, .vcvtb 11 18 1 2⟩), (0xCF609CC0, ⟨1, 1, .vpand 1 7 6⟩),
      (0x57729060, ⟨0, 2, .vpor 5 4 3⟩), (0xDF810400, ⟨1, 3, .vpnot 2 1⟩), (0x679F9815, ⟨0, 4, .vpopc 31 6 5 1⟩),
      (0xEFA20C09, ⟨1, 5, .viota 4 3 2 1⟩), (0x77B49822, ⟨0, 6, .vmovp 9 6 1 2⟩), (0xFFC7578E, ⟨1, 7, .vsat 14 21 28 3 2⟩),
      (0x4FD9E82B, ⟨0, 1, .vdot4 19 26 1 2 3⟩), (0x901C7E2F, ⟨1, 2, .brEq 24 31 559⟩), (0x182E92E7, ⟨0, 3, .brNe 29 4 743⟩),
      (0xA03127A1, ⟨1, 4, .brLt 2 9 929⟩), (0x2843BA59, ⟨0, 5, .brLtu 7 14 601⟩), (0xB0564F13, ⟨1, 6, .brGe 12 19 787⟩),
      (0x3868E3CB, ⟨0, 7, .brGeu 17 24 971⟩), (0x88730685, ⟨1, 1, .brp 6 1 645⟩), (0x10885727, ⟨0, 2, .jmp 546599⟩),
      (0x989857E1, ⟨1, 3, .jal 546785⟩), (0x20A2B2AF, ⟨0, 4, .jr 5 12 687⟩), (0xA8B85953, ⟨1, 5, .trap 547155⟩),
      (0x30C00000, ⟨0, 6, .tret⟩)] : List (W32 × Decoded)),
    reads e.1 e.2 = true := by decide +kernel

theorem test_decode_csrr_to_sto_d : ∀ e ∈ ([
      (0xB8DA02CF, ⟨1, 7, .csrr 20 719⟩), (0x08E06789, ⟨0, 1, .csrw 25 905⟩), (0x90FF164D, ⟨1, 2, .csrx 30 5 589⟩),
      (0x1901A86E, ⟨0, 3, .ldB 3 10 1 .rel .sys .sticky⟩), (0xA1143D9B, ⟨1, 4, .ldBz 8 15 6 .acq .dev .bypass⟩),
      (0x2926D2E7, ⟨0, 5, .ldH 13 20 11 .rel .sg .bypass⟩), (0xB139647A, ⟨1, 6, .ldHz 18 25 1 .acqrel .dev .sticky⟩),
      (0x394BF95E, ⟨0, 7, .ldW 23 30 5 .acq .sys .sticky⟩), (0x895E0E9A, ⟨1, 1, .ldWz 28 3 10 .acq .dev .sticky⟩),
      (0x1160A3EE, ⟨0, 2, .ldD 1 8 15 .rel .sys .sticky⟩), (0x99733615, ⟨1, 3, .ldoB 6 13 533⟩),
      (0x2185CACD, ⟨0, 4, .ldoBz 11 18 717⟩), (0xA9985F87, ⟨1, 5, .ldoH 16 23 903⟩), (0x31AAF23F, ⟨0, 6, .ldoHz 21 28 575⟩),
      (0xB9BD06F9, ⟨1, 7, .ldoW 26 1 761⟩), (0x09CF9BB1, ⟨0, 1, .ldoWz 31 6 945⟩), (0x91D22E6B, ⟨1, 2, .ldoD 4 11 619⟩),
      (0x19E4C1E7, ⟨0, 3, .stB 9 16 7 .rel .sg .bypass⟩), (0xA1F75739, ⟨1, 4, .stH 14 21 12 .acqrel .dev .stream⟩),
      (0x2A09E86E, ⟨0, 5, .stW 19 26 1 .rel .sys .sticky⟩), (0xB21C7D9B, ⟨1, 6, .stD 24 31 6 .acq .dev .bypass⟩),
      (0x3A2E9207, ⟨0, 7, .stoB 29 4 519⟩), (0x8A3126C1, ⟨1, 1, .stoH 2 9 705⟩), (0x1243BB79, ⟨0, 2, .stoW 7 14 889⟩),
      (0x9A564E33, ⟨1, 3, .stoD 12 19 563⟩)] : List (W32 × Decoded)),
    reads e.1 e.2 = true := by decide +kernel

theorem test_decode_amo_add_to_wdraw : ∀ e ∈ ([
      (0x2268E3E7, ⟨0, 4, .amoAdd 17 24 15 .rel .sg .bypass⟩), (0xAA7B7539, ⟨1, 5, .amoAnd 22 29 4 .acqrel .dev .stream⟩),
      (0x328D8A5E, ⟨0, 6, .amoOr 27 2 9 .acq .sys .sticky⟩), (0xBA909FAE, ⟨1, 7, .amoXor 1 7 14 .rel .sys .sticky⟩),
      (0x0AA2B0E6, ⟨0, 1, .amoMax 5 12 3 .rel .sg .sticky⟩), (0x92B54639, ⟨1, 2, .amoMin 10 17 8 .acqrel .dev .stream⟩),
      (0x1AC7DB5E, ⟨0, 3, .amoMaxu 15 22 13 .acq .sys .sticky⟩), (0xA2DA6C9E, ⟨1, 4, .amoMinu 20 27 2 .acq .sys .sticky⟩),
      (0x2AEC85EE, ⟨0, 5, .amoSwap 25 1 7 .rel .sys .sticky⟩), (0xB2FF1739, ⟨1, 6, .cas 30 5 12 .acqrel .dev .stream⟩),
      (0x3B018002, ⟨0, 7, .hnew 3 .dev⟩), (0x8B143C02, ⟨1, 1, .hfork 8 15 .dev⟩), (0x13269003, ⟨0, 2, .hjoin 13 4 .sys⟩),
      (0x9B310000, ⟨1, 3, .hfree 2⟩), (0x23438002, ⟨0, 4, .hwait 7 .dev⟩), (0xAB500001, ⟨1, 5, .fence .sg⟩),
      (0x3360063B, ⟨0, 6, .pref 1 8 .acqrel .dev .bypass⟩), (0xBB733539, ⟨1, 7, .waita 6 13 4 .acqrel .dev .stream⟩),
      (0x0B85C801, ⟨0, 1, .genset 11 18 1⟩), (0x93985C01, ⟨1, 2, .migr 16 23 1⟩), (0x1C0AF075, ⟨0, 3, .send 21 28 3 10 1⟩),
      (0xA41D0001, ⟨1, 4, .ibpop 26 1⟩), (0x2C2F8000, ⟨0, 5, .ibpeek 31⟩), (0xB4300000, ⟨1, 6, .endH⟩),
      (0x3C44C000, ⟨0, 7, .wdraw 9 16⟩)] : List (W32 × Decoded)),
    reads e.1 e.2 = true := by decide +kernel

theorem test_decode_wret_to_vst : ∀ e ∈ ([
      (0x8C575400, ⟨1, 1, .wret 14 21⟩), (0x1469E800, ⟨0, 2, .waudit 19 26⟩), (0x9C7C7DF9, ⟨1, 3, .qwatch 24 31 1 249⟩),
      (0x248E900B, ⟨0, 4, .qnew 29 4 11⟩), (0xAC91260F, ⟨1, 5, .qenq 2 9 16 7 1⟩), (0x34A3B805, ⟨0, 6, .qdeq 7 14 5⟩),
      (0xBCB64C0A, ⟨1, 7, .qtry 12 19 10⟩), (0x0CC8E000, ⟨0, 1, .qfree 17 24⟩), (0x94DB7401, ⟨1, 2, .rackb 22 29 1⟩),
      (0x1CED8801, ⟨0, 3, .bar 27 2 1⟩), (0xA4F09DCB, ⟨1, 4, .mcst 1 7 14 5 1⟩), (0x2D02B275, ⟨0, 5, .spawn 5 12 19 10 1⟩),
      (0xB5154401, ⟨1, 6, .fget 10 17 1⟩), (0x3D27DBA0, ⟨0, 7, .fset 15 22 29⟩), (0x8D3A6C02, ⟨1, 1, .fref 20 27 2⟩),
      (0x15406400, ⟨0, 2, .fdrop 25⟩), (0x9D5F1400, ⟨1, 3, .fpoll 30 5⟩), (0x2569165F, ⟨0, 4, .sync 297775 1⟩),
      (0xAD7897E7, ⟨1, 5, .suspend 8 19443 1⟩), (0x35891943, ⟨0, 6, .yield 298145 1⟩), (0xBD990019, ⟨1, 7, .cordon 18 25⟩),
      (0x0DA00000, ⟨0, 1, .uncordon⟩), (0x95B00000, ⟨1, 2, .qend⟩), (0x1E00A3EE, ⟨0, 3, .vld 1 8 15 .rel .sys .sticky⟩),
      (0xA6133539, ⟨1, 4, .vst 6 13 4 .acqrel .dev .stream⟩)] : List (W32 × Decoded)),
    reads e.1 e.2 = true := by decide +kernel

theorem test_decode_vgath_to_assign : ∀ e ∈ ([
      (0x2E25CB27, ⟨0, 5, .vgath 11 18 25 1 3⟩), (0xB6385FD5, ⟨1, 6, .vscat 16 23 30 5 1⟩), (0x3E4A846B, ⟨0, 7, .vamo 21 1 3 2 3⟩),
      (0x8E510401, ⟨1, 1, .sbind 2 1 1⟩), (0x166F8800, ⟨0, 2, .sfree 31 2⟩), (0x9E722C00, ⟨1, 3, .vsave 4 11⟩),
      (0x2684C000, ⟨0, 4, .vrest 9 16⟩), (0xAEA75783, ⟨1, 5, .copy 14 21 28 3⟩), (0x36B04F41, ⟨0, 6, .copys 19 26 1⟩),
      (0xBEC063FD, ⟨1, 7, .copyx 24 31 1 13⟩), (0x0EDE9162, ⟨0, 1, .ttpost 29 4 11 2⟩), (0x96E00002, ⟨1, 2, .caskopen 2⟩),
      (0x1EF00003, ⟨0, 3, .caskseal 3⟩), (0xA7000000, ⟨1, 4, .idle⟩), (0x2F18E3E0, ⟨0, 5, .plbw 17 24 31⟩),
      (0xB72B7401, ⟨1, 6, .plbinv 22 29 1⟩), (0x3F3D8801, ⟨0, 7, .preempt 27 2 1⟩), (0x8F409C00, ⟨1, 1, .ctxsave 1 7⟩),
      (0x1752B000, ⟨0, 2, .ctxload 5 12⟩), (0x9F650000, ⟨1, 3, .wvint 10⟩), (0x2777D805, ⟨0, 4, .errinj 15 22 5⟩),
      (0xAF8A6C22, ⟨1, 5, .kload 20 27 34⟩), (0x379C8020, ⟨0, 6, .kzero 25 32⟩), (0xBFAF1581, ⟨1, 7, .scrub 30 5 12 1⟩),
      (0x0FB1AA20, ⟨0, 1, .assign 3 10 17⟩)] : List (W32 × Decoded)),
    reads e.1 e.2 = true := by decide +kernel

theorem test_decode_release_to_linkkey : ∀ e ∈ ([
      (0x97C40000, ⟨1, 2, .release 8⟩), (0x1FD6D01B, ⟨0, 3, .linkkey 13 20 27⟩)] : List (W32 × Decoded)),
    reads e.1 e.2 = true := by decide +kernel

/-- Opcodes that no row has, and a reserved field that is not 0. -/
theorem test_rejects : rejects 0x7FF0_0000 .opcode = true ∧ rejects 0x4010_0001 .reserved = true
    ∧ decodeTableWord 32 0x4010_0001 = none ∧ decodeTableWord 32 0x48173400 = some (.add 14 13 0) := by decide +kernel
/-! ## Threads that move, lanes, streams and handles that wait -/

theorem sourced_pop {i : Instr} {s : State} (r : Nat) (q : Stream) {e : Strip} {rest : List Strip} (p : s.cur.pushOf i = none)
    (h : s.cur.popsOf i = [r]) (b : s.cur.streamOf r = some q) (w : q.write = false) (l : q.pos < q.length) (f : q.fetched = e :: rest)
    (t : e.trap = none) : Sourced i s :=
  ⟨p, fun k hk => by rw [h] at hk; cases List.mem_singleton.1 hk; exact ⟨q, e, rest, b, w, l, f, t⟩⟩
/-- A stream with its first strip there. -/
def popped0 : Stream := { rd0 with fetched := [strip none] }
def popping0 : State := bound popped0
theorem meets_lanes_popped : (vecSpec (popping0.showing (.vadd 3 28 2 0 0)) (.vadd 3 28 2 0 0)).isSome = true
    ∧ Ready (.vadd 3 28 2 0 0) popping0 ∧ Sourced (.vadd 3 28 2 0 0) popping0 ∧ popping0.cur.popsOf (.vadd 3 28 2 0 0) = [28] :=
  ⟨by decide +kernel, ready (by decide +kernel), sourced_pop 28 popped0 (by decide +kernel) (by decide +kernel) (by decide +kernel) rfl (by decide +kernel) rfl rfl, by decide +kernel⟩
theorem meets_scatter_popped : Ready (.vscat 28 2 4 0 0) popping0 ∧ Sourced (.vscat 28 2 4 0 0) popping0
    ∧ (vecRed popping0 (.vredAdd 3 28 0 0)).isSome = true ∧ Ready (.vredAdd 3 28 0 0) popping0 ∧ Sourced (.vredAdd 3 28 0 0) popping0 :=
  ⟨ready (by decide +kernel), sourced_pop 28 popped0 (by decide +kernel) (by decide +kernel) (by decide +kernel) rfl (by decide +kernel) rfl rfl, by decide +kernel, ready (by decide +kernel),
    sourced_pop 28 popped0 (by decide +kernel) (by decide +kernel) (by decide +kernel) rfl (by decide +kernel) rfl rfl⟩

/-- s5 names a line whose home is core 1, which is idle in the region, and the thread always goes there. -/
def mv : State := (on (user ctx0) (fun c => withRegs [(5, 0x4040)] { c with t := { c.t with homepol := 2 } })).modCore 1 (fun c => { c with
  run := .idle, ctxid := 7 })
/-- The same with a load that has not come back. -/
def mvBusy : State := on mv (fun c => { c with mem := [load1] })
theorem meets_move : Drawn mv 0x4040 1 ∧ MayLeave mv ∧ mv.idleIn 1 mv.cur.ctxid = true ∧ mv.cur.fwd.length < 8 ∧ RoomForStore mv
    ∧ Drawn mvBusy 0x4040 1 ∧ ¬ MayLeave mvBusy :=
  ⟨⟨by decide +kernel, .inl rfl, by decide +kernel⟩, ⟨by decide +kernel, by decide +kernel, by decide +kernel⟩, by decide +kernel, by decide +kernel, by unfold RoomForStore; decide,
    ⟨by decide +kernel, .inl rfl, by decide +kernel⟩, fun h => absurd h.1 (by decide +kernel)⟩
theorem meets_move_scalar : Ready (.ldD 7 5 0 .plain .dev .default) mv ∧ mv.retire.accCheck mv.retire.cur .load 0x4040 8 = none
    ∧ Ready (.stD 7 5 0 .plain .dev .default) mv ∧ mv.retire.accCheck mv.retire.cur .store 0x4040 8 = none
    ∧ Ready (.amoAdd 7 5 0 .plain .dev .default) mv ∧ mv.retire.accCheck mv.retire.cur .atomic 0x4040 8 = none :=
  ⟨ready (by decide +kernel), by decide +kernel, ready (by decide +kernel), by decide +kernel, ready (by decide +kernel), by decide +kernel⟩
theorem meets_move_vector : Ready (.vld 1 5 0 .plain .dev .default) mv ∧ Unbound (.vld 1 5 0 .plain .dev .default) mv
    ∧ mv.retire.accCheck mv.retire.cur .vload 0x4040 64 = none
    ∧ Ready (.vst 1 5 0 .plain .dev .default) mv ∧ Unbound (.vst 1 5 0 .plain .dev .default) mv
    ∧ mv.retire.accCheck mv.retire.cur .vstore 0x4040 64 = none
    ∧ Ready (.vamo 1 3 5 0 0) mv ∧ Sourced (.vamo 1 3 5 0 0) mv ∧ mv.retire.accCheck mv.retire.cur .vatomic 0x4040 64 = none :=
  ⟨ready (by decide +kernel), ⟨by decide +kernel, by decide +kernel⟩, by decide +kernel, ready (by decide +kernel), ⟨by decide +kernel, by decide +kernel⟩, by decide +kernel, ready (by decide +kernel),
    sourced ⟨by decide +kernel, by decide +kernel⟩, by decide +kernel⟩
theorem meets_move_lanes : Ready (.vgath 1 2 5 0 0) mv ∧ Sourced (.vgath 1 2 5 0 0) mv ∧ mv.cur.streamOf 1 = none
    ∧ (∀ e ∈ mv.laneList 0 2 5 0, mv.retire.laneCheck mv.retire.cur .load e.2 (mv.vw 0) = none) ∧ mv.cur.gathersOut < 4
    ∧ ((mv.laneList 0 2 5 0).filter (fun e => !isGen (mv.window e.2))).head? = some (0, 0x4040)
    ∧ Ready (.vscat 1 2 5 0 0) mv ∧ Sourced (.vscat 1 2 5 0 0) mv
    ∧ (∀ e ∈ mv.laneList 0 2 5 0, mv.retire.laneCheck mv.retire.cur .store e.2 (mv.vw 0) = none)
    ∧ mv.cur.unacked + mv.cur.pushes.length = 0 :=
  ⟨ready (by decide +kernel), sourced ⟨by decide +kernel, by decide +kernel⟩, by decide +kernel, by decide +kernel, by decide +kernel, by decide +kernel, ready (by decide +kernel),
    sourced ⟨by decide +kernel, by decide +kernel⟩, by decide +kernel, by decide +kernel⟩
/-- Four vector words have lanes to perform; or 32 stores are not acknowledged. -/
def lanes4 : State := on p1 (fun c => { c with mem := (List.range 4).map (fun k => { load1 with form := .lane 0 8, tag := k }) })
theorem meets_lanes_wait : Ready (.vgath 1 2 4 0 0) lanes4 ∧ Sourced (.vgath 1 2 4 0 0) lanes4 ∧ lanes4.cur.streamOf 1 = none
    ∧ (∀ e ∈ lanes4.laneList 0 2 4 0, lanes4.retire.laneCheck lanes4.retire.cur .load e.2 (lanes4.vw 0) = none) ∧ 4 ≤ lanes4.cur.gathersOut
    ∧ (let s := full p1
      Ready (.vscat 1 2 4 0 0) s ∧ Sourced (.vscat 1 2 4 0 0) s
        ∧ (∀ e ∈ s.laneList 0 2 4 0, s.retire.laneCheck s.retire.cur .store e.2 (s.vw 0) = none)
        ∧ s.cur.unacked + s.cur.pushes.length = 32 ∧ s.isDet s.cur = false
        ∧ (s.laneList 0 2 4 0).filter (fun e => !isGen (s.window e.2)) ≠ []) :=
  ⟨ready (by decide +kernel), sourced ⟨by decide +kernel, by decide +kernel⟩, by decide +kernel, by decide +kernel, by decide +kernel,
    ready (by decide +kernel), sourced ⟨by decide +kernel, by decide +kernel⟩, by decide +kernel, by decide +kernel, by decide +kernel, by decide +kernel⟩

/-- The handles in a deterministic region; an earlier load has not come back, or none is out. -/
def hDet : State := on { user detRegion with seqrs := h1.seqrs } (fun c => { c with t := { c.t with h := h1.cur.t.h } })
def hDetBusy : State := on hDet (fun c => { c with mem := [load1] })
theorem meets_handle_grant : hDet.isDet hDet.cur = true ∧ hDet.cur.qgo = false ∧ Ready (.hnew 3 .dev) hDet ∧ Ready (.hfork 3 2 .dev) hDet
    ∧ Ready (.hfree 1) hDet ∧ hDet.handle 1 = some { id := id1, scope := .dev } ∧ hDet.cur.uncleared = false
    ∧ Ready (.hfree 1) hDetBusy ∧ hDetBusy.handle 1 = some { id := id1, scope := .dev } ∧ hDetBusy.isDet hDetBusy.cur = true
    ∧ hDetBusy.cur.uncleared = true :=
  ⟨by decide +kernel, rfl, ready (by decide +kernel), ready (by decide +kernel), ready (by decide +kernel), by decide +kernel, by decide +kernel, ready (by decide +kernel), by decide +kernel, by decide +kernel,
    by decide +kernel⟩
/-- An earlier load has not come back; or one under a handle of device 5, which the message passes, has no ticket. -/
def sending (x : Access) : State := on n1 (fun c => { c with mem := [x], t := { c.t with h := c.t.h.set 2 (some { id := 0x0014_0001, scope := .dev }) } })
theorem meets_send_later : Ready (.send 1 2 4 1 0) (sending load1) ∧ (sending load1).cur.uncleared = true ∧ (sending load1).cur.credits ≠ 0
    ∧ (sending load1).ticketWait 1 = false ∧ (sending load1).cur.txn = .none ∧ (sending load1).cur.marked = false := by
  refine ⟨ready (by decide +kernel), ?_⟩; decide
theorem meets_send_ticket : Ready (.send 1 2 4 2 0) (sending away5) ∧ (sending away5).ticketWait 2 = true
    ∧ (sending away5).destCheck ((sending away5).rs 1) = none ∧ (sending away5).futCheck 4 0 = none ∧ CanTake (sending away5) 0 :=
  ⟨ready (by decide +kernel), by decide +kernel, by decide +kernel, by decide +kernel, by unfold CanTake; decide⟩

/-! ## Memory that an agent of the device uses for a word -/

/-- What the first area that a walk refuses, if any, meets: 1 an invalid entry, 2 a fault. -/
def missOf (s : State) (areas : List (Nat × Nat)) : Nat :=
  match areas.findSome? s.lineMiss with | some (_, .ok _) => 1 | some (_, .error _) => 2 | none => 0
theorem reached {s : State} {l : List (Nat × Nat)} (h : ((l.findSome? s.lineMiss).isNone && !s.areaOff l) = true) : Reached s l := by
  simp only [Bool.and_eq_true, Option.isNone_iff_eq_none, Bool.not_eq_true'] at h; exact h
theorem mapped {s : State} {l : List (Nat × Nat)}
    (h : (l.all (fun e => match s.lineMiss e with | some (_, .ok _) => false | _ => true) && !s.areaOff l) = true) : Mapped s l := by
  simp only [Bool.and_eq_true, List.all_eq_true, Bool.not_eq_true'] at h
  exact ⟨fun e he a p k => (by have := h.1 e he; rw [k] at this; cases this), h.2⟩
theorem usesOk {s : State} {l : List (Nat × Nat)} {fs : List Nat}
    (h : (((l ++ fs.map frameArea).findSome? s.lineMiss).isNone && !s.areaOff (l ++ fs.map frameArea)
      && (match s.ctxOf s.cur with | some x => fs.all (s.frameOk x) | none => true)) = true) : UsesOk s l fs := by
  rw [Bool.and_eq_true] at h
  refine ⟨reached h.1, fun x hx f hf => ?_⟩
  have h := h.2
  rw [hx] at h
  exact List.all_eq_true.1 h f hf
theorem meets_inbox_spilled_reached : Reached n7 [({ q3 with tail := 1 }.entry 0, 64)] := reached (by decide +kernel)
/-- The region's spill queue has an entry in paged memory that is not mapped, cannot be walked, or is homed at an isolated slice. -/
def n7p : State := { n7 with queues := [(4, { q3 with base := 0x4000, tail := 1 })] }
def n7w : State := { n7p with walkroot := 0x5000_0000_0000_0000 }
def n7i : State :=
  { n7p with cache := [(0x100, { pa := 0x8000, data := 0, dirty := false, hint := .default, l1 := none, bad := 0 })]
             isolated := [n7p.homeSlice 0x4000] }
theorem meets_inbox_held_up : Ready (.ibpop 20 2) n7p ∧ Ready (.ibpeek 20) n7p
    ∧ n7p.spillOf n7p.cur = some (qh4, { q3 with base := 0x4000, tail := 1 }) ∧ missOf n7p [(0x4000, 64)] = 1 ∧ n7p.cur.ctxid ≠ 0
    ∧ missOf n7w [(0x4000, 64)] = 2 ∧ missOf n7i [(0x4000, 64)] = 0 ∧ n7i.areaOff [(0x4000, 64)] = true :=
  ⟨ready (by decide +kernel), ready (by decide +kernel), by decide +kernel, by decide +kernel, by decide +kernel, by decide +kernel, by decide +kernel, by decide +kernel⟩
theorem meets_queue_held_up : Ready (.qdeq 20 17 2) n7p ∧ Ready (.qtry 20 17 2) n7p ∧ Settled n7p
    ∧ n7p.usableQueue qh4 = some { q3 with base := 0x4000, tail := 1 } ∧ Reached n1 [({ q3 with tail := 1 }.entry 0, 64)]
    ∧ Reached n8 [({ q3 with tail := 1 }.entry 0, 64)] :=
  ⟨ready (by decide +kernel), ready (by decide +kernel), settled (by decide +kernel), by decide +kernel, reached (by decide +kernel), reached (by decide +kernel)⟩
theorem meets_queue_free_mapped : Mapped n1 ((List.range (q3.tail - q3.head)).map (fun k => (q3.entry (q3.head + k), 64)))
    ∧ Ready (.qfree 20 17) n1 ∧ n1.queueOf qh4 = some { q3 with tail := 1 } ∧ Mapped n1 [({ q3 with tail := 1 }.entry 0, 64)] :=
  ⟨mapped (by decide +kernel), ready (by decide +kernel), by decide +kernel, mapped (by decide +kernel)⟩
theorem meets_multicast_waits : let s := on (noCredit n5) (fun c => { c with listed := some [0] })
    Ready (.mcst 1 2 4 0 0) s ∧ Idle s ∧ s.cur.listed = some [0] ∧ s.cur.credits = 0 ∧ s.ticketWait 0 = false :=
  ⟨ready (by decide +kernel), idle (by decide +kernel) rfl, rfl, rfl, by decide +kernel⟩
/-- The run has no marks; in n1 it has one, for a future in paged memory that is not mapped. -/
def unmarked1 : State := onT n1 (fun t => { t with fmask := 0 })
theorem meets_end_mapped : Ready .endH unmarked1 ∧ unmarked1.cur.uncleared = false ∧ unmarked1.cur.t.div = none ∧ unmarked1.cur.replay = []
    ∧ Mapped unmarked1 (unmarked1.endAreas 0) :=
  ⟨ready (by decide +kernel), by decide +kernel, rfl, rfl, mapped (by decide +kernel)⟩
theorem meets_end_parks : n1.cur.ctxid ≠ 0
    ∧ ((n1.endAreas 0).findSome? (fun e => match n1.lineMiss e with | some (a, .ok p) => some (a, p) | _ => none)).isSome = true := by decide +kernel

/-- What the words on futures and continuations use can be reached in `f0` and in `f1`. -/
theorem meets_uses : UsesOk f0 [] f0.ownFrame ∧ f0.ownFrame ≠ [] ∧ UsesOk f0 [(spad.toNat, 32)] [] ∧ UsesOk f0 [(spad.toNat + 32, 32)] []
    ∧ UsesOk f0 [] (f0.waiting spad.toNat) ∧ UsesOk f0 (f0.wakeUse spad.toNat).1 (f0.wakeUse spad.toNat).2
    ∧ UsesOk f0 (f0.restUse 0xFFFE (.future spad.toNat)).1 (f0.restUse 0xFFFE (.future spad.toNat)).2
    ∧ UsesOk f1 [] f1.ownFrame ∧ UsesOk f1 (f1.restUse 6 .sync).1 (f1.restUse 6 .sync).2 ∧ f1.cur.t.frame ≠ 0 :=
  ⟨usesOk (by decide +kernel), by decide +kernel, usesOk (by decide +kernel), usesOk (by decide +kernel), usesOk (by decide +kernel), usesOk (by decide +kernel), usesOk (by decide +kernel),
    usesOk (by decide +kernel), usesOk (by decide +kernel), by decide +kernel⟩
theorem meets_leaves : leaveSpec f0 (.suspend 3 3 1) = some (6, true, 3, .queue 3) ∧ Ready (.suspend 3 3 1) f0
    ∧ UsesOk f0 (f0.restUse 6 (.queue 3)).1 (f0.restUse 6 (.queue 3)).2 ∧ popUpTo (f0.cur.t.finish.saveMask 6 true) 54 ≤ 16
    ∧ leaveSpec f0 (.yield 0x7FFFF 0) = some (2 * 0x7FFFF, false, f0.cur.t.prio.toNat, .queue f0.cur.t.prio.toNat)
    ∧ UsesOk f0 (f0.restUse (2 * 0x7FFFF) (.queue 0)).1 (f0.restUse (2 * 0x7FFFF) (.queue 0)).2 ∧ f0.cur.t.prio = 0 ∧ f0.slaved = false :=
  ⟨rfl, ready (by decide +kernel), usesOk (by decide +kernel), by decide +kernel, rfl, usesOk (by decide +kernel), rfl, by decide +kernel⟩
/-- The run's frame has the index of another one; or lies in paged memory that is not mapped. -/
def f0b : State := f0.vSet (spad.toNat + 0x1008) 4 5
def f0p : State := onT f0 (fun t => { t with frame := 0x4000 })
theorem meets_uses_not : (match f0b.ctxOf f0b.cur with
      | some x => decide (f0b.ownFrame.find? (fun f => !f0b.frameOk x f) = some (spad.toNat + 0x1000)) | none => false) = true
    ∧ Reached f0b (f0b.ownFrame.map frameArea) ∧ missOf f0p (f0p.ownFrame.map frameArea) = 1 ∧ f0p.cur.ctxid ≠ 0
    ∧ Ready (.spawn 4 2 13 0 1) f0b ∧ Ready (.fpoll 20 13) f0b ∧ Ready (.fget 20 13 1) f0p ∧ Ready (.suspend 3 3 1) f0p :=
  ⟨by decide +kernel, reached (by decide +kernel), by decide +kernel, by decide +kernel, ready (by decide +kernel), ready (by decide +kernel), ready (by decide +kernel), ready (by decide +kernel)⟩
def spawnUse (s : State) (prio : Nat) : List (Nat × Nat) × List Nat :=
  (s.withCtx (fun x => s.heapArea x :: ((s.freeFrames x).take 2).map frameArea ++ s.queueEntry x prio), s.withCtx (fun x => s.queueFrames x prio))
theorem meets_spawn_uses : UsesOk f0 (spawnUse f0 5).1 (spawnUse f0 5).2 ∧ (f0.rs 4).toNat / 2 ^ 58 % 16 = 5 ∧ f0.ticketWait 0 = false
    ∧ UsesOk f2 [] f2.ownFrame ∧ UsesOk f2 (spawnUse f2 5).1 (spawnUse f2 5).2
    ∧ UsesOk f5 [] f5.ownFrame ∧ UsesOk f5 (spawnUse f5 5).1 (spawnUse f5 5).2 :=
  ⟨usesOk (by decide +kernel), by decide +kernel, by decide +kernel, usesOk (by decide +kernel), usesOk (by decide +kernel), usesOk (by decide +kernel), usesOk (by decide +kernel)⟩
/-- The run passes a handle of device 5, under which an access has no ticket. -/
def spawning : State := on f0 (fun c => { c with mem := [{ away5 with kind := .join, bytes := [], cleared := true }], t := { c.t with h := c.t.h.set 2 (some { id := 0x0014_0001, scope := .dev }) } })
theorem meets_spawn_ticket : Ready (.spawn 4 2 13 2 1) spawning ∧ Settled spawning ∧ UsesOk spawning [] spawning.ownFrame
    ∧ spawning.ticketWait 2 = true ∧ spawning.destCheck (spawning.rs 4) = none ∧ spawning.futCheck 13 1 = none :=
  ⟨ready (by decide +kernel), settled (by decide +kernel), usesOk (by decide +kernel), by decide +kernel, by decide +kernel, by decide +kernel⟩
theorem scratch {s : State} {a n : Nat} (h : (decide (0 < n ∧ a + n ≤ 2 ^ 64) && (List.range n).all (fun k =>
      !s.absentUnit (BitVec.ofNat 64 (a + k)) && (match s.window (BitVec.ofNat 64 (a + k)) with | .spad _ d _ _ => decide (d = s.devid) | _ => false))
    && decide (s.keysAt a n).Nodup && (s.keysAt a n).all (fun k => !s.bad.contains (k / 4 * 4))) = true) : Scratch s a n := by
  simp only [Bool.and_eq_true, decide_eq_true_eq, List.all_eq_true, List.mem_range, Bool.not_eq_true'] at h
  obtain ⟨⟨⟨h1, h2⟩, h3⟩, h4⟩ := h
  refine ⟨h1, fun k hk => ⟨(h2 k hk).1, ?_⟩, h3, h4⟩
  have := (h2 k hk).2
  split at this
  · rename_i f d c o e
    rw [of_decide_eq_true this] at e
    exact ⟨f, c, o, e⟩
  · cases this
theorem meets_scratch : Scratch f0 (spad.toNat + 0x1000) 8 ∧ Scratch f0 (spad.toNat + 0x1018) 8
    ∧ ∀ k ∈ f0.keysAt (spad.toNat + 0x1018) 8, k ∉ f0.keysAt (spad.toNat + 0x1000) 8 := ⟨scratch (by decide +kernel), scratch (by decide +kernel), by decide +kernel⟩
theorem meets_uncordon_mapped : Mapped f4 (f4.cur.members.flatMap f4.endAreas) := mapped (by decide +kernel)

/-! ## Cordons that trap, tasks and assignments -/

/-- Core 0 leads core 1, which traps where it divides by 0. -/
def ct : State :=
  (on (user ctx0) (fun c => { c with members := [1], cordsz := 2 })).modCore 1 (fun _ =>
    { (user ctx0).cur with leader := some 0, lane := 1, cordsz := 2, dzt := true })
/-- `div` alone, of two registers that hold 0. -/
def divBundle : W64 := 0x48173400_D075CB20
def atMember (m : Nat) : Core := (ct.memberRun m spad divBundle).coreAt m
theorem meets_cordon_trap : reads 0xD075CB20 ⟨1, 2, .div 11 18 25⟩ = true ∧ ct.cordonOf 0 = [0, 1] ∧ (ct.coreAt 0).marked = false
    ∧ (∀ m ∈ [0, 1], (ct.coreAt m).pl = 0 ∧ (ct.coreAt m).uncleared = false ∧ ct.barred (ct.memberRun m spad divBundle) [0, 1] m = false)
    ∧ (atMember 0).slot = .done ∧ (atMember 1).slot = .trapped ∧ (atMember 1).tpc.toNat = spad.toNat
    ∧ (atMember 1).tcause.extractLsb' 0 8 = cDivZero := by decide +kernel

/-- What `ttpost` reads, and the areas that it uses. -/
def posts (s : State) (f : State → Bool) : Bool :=
  givesBytes (s.gated.syncLoad (spad + 0x4000) 64 128) (fun _ v => givesBytes (v.syncLoad (spad + 0x4040) 64 64) (fun _ u => f u))
/-- The future heap lies in paged memory that is not mapped. -/
def xp : Ctx := { xt with rcb := { rcb0 with fheap := 0x4000 } }
theorem meets_task_reached : posts tt (fun u => ([u.heapArea xt].findSome? u.lineMiss).isNone && !u.areaOff [u.heapArea xt]) = true
    ∧ (let s := { tt with ctxs := [(7, xp)] }
       Ready (.ttpost 5 12 2 0) s ∧ Settled s ∧ s.ctxOf s.cur = some xp ∧ posts s (fun u => decide (missOf u [u.heapArea xp] = 1)) = true) :=
  ⟨by decide +kernel, ready (by decide +kernel), settled (by decide +kernel), by decide +kernel, by decide +kernel⟩
/-- Which case of `assign` a state is in: its status, or 1 where what it loads is not there. -/
def assignCase (s : State) : Nat :=
  match s.retire.loadChain (s.rs 1) [] (2 ^ 48) with
  | .error _ => 1
  | .ok (chain, v) => match v.loadBlock (s.rs 2) 64 1 with
    | .error _ => 1
    | .ok (rs, w) => match w.loadPlace (resolveRcb chain).place with
      | .error _ => 1
      | .ok (devs, u) =>
        let r := resolveRcb chain
        let cores := (List.range (fieldAt rs 2 2)).map (fun k => fieldAt rs 0 2 + k)
        let id := (chain.head?.map (fun c => c.ctxid.toNat)).getD 0
        let pool := (List.range r.fpooln.toNat).map (fun k => (r.fpool.toNat + k * r.framesz.toNat, 8))
        if fieldAt rs 2 2 = 0 ∨ fieldAt rs 0x10 4 ≠ 0 ∨ missOf u pool ≠ 0 ∨ u.areaOff pool = true then 1
        else if s.cur.pl ≠ 2 && !(s.cur.supv && decide (s.cur.region ≠ 0) && chain.any (fun c => decide (c.ctxid = s.cur.region))) then 3
        else if r.bcores.toNat < cores.length ∨ r.bscr.toNat < 64 * cores.length ∨ cores.any (fun m => decide (s.ncores ≤ m)) = true ∨ devs = none
          ∨ r.nlog.toNat < 3 ∨ 31 < r.nlog.toNat ∨ fieldAt rs 8 8 % 2 ^ 21 ≠ 0 ∨ s.lcstate ≠ 2 then 11
        else if id = 0 ∨ s.ctx? id ≠ none ∨ s.ctxs.any (fun e => cores.any e.2.cores.contains) = true then 8
        else if s.rescrub = true ∨ cores.any (fun m => s.held.any (fun h => !h.page && decide (h.num = m))
          || s.pendCovers false (m * 2 ^ 16) ((m + 1) * 2 ^ 16)) = true then 7
        else if r.modef.getLsbD 0 = true ∧ s.keyAt r.keyslot.toNat = none then 9 else 0
def unfree (s : State) : State := { s with held := [{ page := false, num := 5, lineage := [], freeable := false }] }
/-- The RCB asks for a key. -/
def asKey : State := (as0 2).vSet (spad.toNat + 0x1014) 1 1
theorem meets_assign_cases : assignCase (as0 2) = 0 ∧ assignCase (as0 0) = 11 ∧ assignCase (astray (as0 2)) = 3
    ∧ assignCase { as0 2 with ctxs := [(9, ctx0)] } = 8 ∧ assignCase (unfree (as0 2)) = 7 ∧ assignCase asKey = 9
    ∧ assignCase { as0 2 with rescrub := true } = 7 := by decide +kernel

end Sys2Proof.Tests
end

section
/-!
PROOFS. A core's turn runs the bundle that it fetches: what the turn, the issue stage, a lone bundle and a pair do, each said once
(02 R41, 03 R49, R52, R53), and the statement about a step that rests on them.
-/
namespace Sys2Proof.Machine

@[simp] theorem onNext_next (t : State) (f : State → State) : onNext (.next t) f = .next (f t) := rfl

theorem onNext_onNext (o : Host.Outcome State Fault Refusal) (f g : State → State) :
    onNext (onNext o f) g = onNext o (fun t => g (f t)) := by
  cases o <;> rfl

/-! ## Before a slot issues -/

@[simp] theorem State.coreAt_advanceTo (s : State) (cycle n : Nat) : (s.advanceTo cycle).coreAt n = s.coreAt n := by
  unfold State.advanceTo
  split <;> rfl

@[simp] theorem Thread.endDiv_pc (t : Thread) : t.endDiv.pc = t.pc := by
  unfold Thread.endDiv
  split <;> rfl

/-- The divider's result changes its core's thread alone. -/
theorem State.coreAt_divideDue (s : State) (n : Nat) :
    (s.divideDue n).coreAt n = s.coreAt n ∨ (s.divideDue n).coreAt n = { s.coreAt n with t := (s.coreAt n).t.endDiv } := by
  unfold State.divideDue
  split
  · split
    · exact .inl rfl
    · exact .inr (State.coreAt_modCore s n _)
  · exact .inl rfl

@[simp] theorem State.divideDue_pc (s : State) (n : Nat) : ((s.divideDue n).coreAt n).t.pc = (s.coreAt n).t.pc := by
  rcases s.coreAt_divideDue n with h | h <;> simp [h]

@[simp] theorem State.divideDue_pl (s : State) (n : Nat) : ((s.divideDue n).coreAt n).pl = (s.coreAt n).pl := by
  rcases s.coreAt_divideDue n with h | h <;> simp [h]

@[simp] theorem State.divideDue_members (s : State) (n : Nat) :
    ((s.divideDue n).coreAt n).members = (s.coreAt n).members := by
  rcases s.coreAt_divideDue n with h | h <;> simp [h]

@[simp] theorem State.divideDue_icache (s : State) (n : Nat) : ((s.divideDue n).coreAt n).icache = (s.coreAt n).icache := by
  rcases s.coreAt_divideDue n with h | h <;> simp [h]

/-! ## The turn of a core that issues its slots by itself -/

/-- The core is outside a cordon, or runs its trap routine. -/
def Core.Single (c : Core) : Prop := (c.leader = none ∧ c.members = []) ∨ c.pl ≠ 0

theorem State.leadOf_single {s : State} {n : Nat} (h : (s.coreAt n).Single) : s.leadOf n = n := by
  rcases h with ⟨hl, -⟩ | hp
  · simp [State.leadOf, hl]
  · exact if_neg hp

theorem State.slotCores_single {s : State} {n : Nat} (h : (s.coreAt n).Single) :
    (if (s.coreAt n).pl = 0 then s.cordonOf n else [n]) = [n] := by
  rcases h with ⟨hl, hm⟩ | hp
  · simp [State.cordonOf, hl, hm]
  · exact if_neg hp

/-- The turn of a core that runs, has no cause to take and no result to push, and waits for nothing, issues its next slot. -/
theorem slotTurn_issues {s : State} {n : Nat} (hsingle : (s.coreAt n).Single) (hfirm : s.firmware = true)
    (hrun : (s.coreAt n).run = .running) (hfpark : (s.coreAt n).fpark = none) (hgpark : (s.coreAt n).gpark = none)
    (hcause : (s.coreAt n).preempt = false) (hopen : s.quantumOpen n = true)
    (hland : s.landNext n ((s.coreAt n).preempt || (s.coreAt n).qended) = none) :
    slotTurn s n = onNext (issueOne ((s.advanceTo (s.coreAt n).ready).divideDue n) n) (fun t =>
      (((s.advanceTo (s.coreAt n).ready).divideDue n).afterSlot [n] t).reclaimAsleep n) := by
  have hcan : (s.coreAt n).canIssue = true := by simp [Core.canIssue, hrun, hfpark]
  simp only [slotTurn, State.leadOf_single hsingle, State.slotCores_single hsingle, List.findSome?_singleton, hland]
  simp [hfirm, hrun, hcause, hcan, hopen, hgpark]

/-- A slot's turn of the agenda is the core's turn, with what every step leaves behind. -/
theorem step_slot {s s0 : State} {ev : Ev} (hturn : s.turn = ({ act := .slot, ev := ev }, s0)) (hcore : ev.core < s0.ncores) :
    step s = onNext (slotTurn { s0 with ev := ev } ev.core) s0.settle := by
  have h : ev.core < ({ s0 with ev := ev } : State).ncores := hcore
  simp [step, hturn, runTurn, h]

/-! ## The issue stage -/

/-- The bundle that is fetched runs, where no walk moves the thread and its place can be reached. -/
theorem issueOne_bundle {s u : State} {n : Nat} {addr b : W64} (haddr : (s.coreAt n).t.pc &&& ~~~(7 : W64) = addr)
    (hsingle : (s.coreAt n).members = [] ∨ (s.coreAt n).pl ≠ 0)
    (hwalk : (s.coreAt n).pl = 0 → FMap.get? (s.coreAt n).icache addr.toNat = none → s.walkTarget n addr none = none)
    (hoff : s.offNow ((List.range 8).map (fun i => s.locate (addr + BitVec.ofNat 64 i))) = false)
    (hfetch : s.fetch n addr = .bundle b u) :
    issueOne s n = runBundle (u.answered n addr) n (s.coreAt n).t.pc b := by
  have hstay : (if (decide ((s.coreAt n).pl = 0) && s.fetchable addr && (FMap.get? (s.coreAt n).icache addr.toNat).isNone)
      && s.permits (s.coreAt n) addr rExec then s.walkTarget n addr none else none) = none := by
    split
    · next h =>
      simp only [Bool.and_eq_true, decide_eq_true_eq, Option.isNone_iff_eq_none] at h
      obtain ⟨⟨⟨hpl, -⟩, hcache⟩, -⟩ := h
      exact hwalk hpl hcache
    · rfl
  have halone : ((s.coreAt n).members.isEmpty = true ∨ (s.coreAt n).pl ≠ 0) := hsingle.imp_left (by simp [·])
  unfold issueOne
  simp only [haddr, hstay, hoff, hfetch, Bool.and_false, Bool.false_eq_true, if_false, if_pos halone]

/-! ## A lone bundle (03 R53) -/

theorem runBundle_lone {pc b : W64} {w0 w1 : W32} (h : slotKind pc b = .lone w0 w1) (s : State) (n : Nat) :
    runBundle s n pc b
      = runLone s n (pc &&& ~~~(7 : W64)) (pc.getLsbD 2) (if pc.getLsbD 2 then w1 else w0) := by
  simp only [runBundle, h]
  cases pc.getLsbD 2 <;> rfl

/-- A word that decodes runs with its slot's issue register. -/
theorem runLone_decoded {w : W32} {d : Decoded} (h : decodeWord w = .ok d) (s : State) (n : Nat) (addr : W64) (word1 : Bool) :
    runLone s n addr word1 w
      = onNext (exec d.i (s.withIssue n (issueOf (s.coreAt n) (if word1 then addr + 4 else addr)
          (if word1 then addr + 8 else addr + 4) word1 word1 w d.s.toNat))) (fun t => t.endParity n [d.i]) := by
  simp only [runLone, h]

/-! ## A pair (02 R41, 03 R52) -/

theorem runBundle_pair {pc b : W64} {w0 w1 : W32} (h : slotKind pc b = .pair w0 w1) (s : State) (n : Nat) :
    runBundle s n pc b = runPair s n (pc &&& ~~~(7 : W64)) w0 w1 := by
  simp only [runBundle, h]

/-- A word's end stops the slot where it waits, or traps in a way that is not its own effect. -/
theorem State.stopped_iff (s : State) (n : Nat) (user : Bool) :
    s.stopped n user = true ↔ (s.coreAt n).slot = .waiting ∨ ((s.coreAt n).slot = .trapped ∧ user = false) := by
  unfold State.stopped
  cases (s.coreAt n).slot <;> simp

/-- The issue register of a word of a pair: both words have the stall count of the longer one. -/
def pairIssue (c : Core) (addr : W64) (w0 w1 : W32) (word1 : Bool) : Issue :=
  issueOf c addr (addr + 8) word1 false (if word1 then w1 else w0) (max (wordS w0).toNat (wordS w1).toNat)

/-- Both words of a pair decode to what is named and pass their checks, and word 0 pops no stream. -/
structure PairChecked (s : State) (n : Nat) (addr : W64) (w0 w1 : W32) (i0 i1 : Instr) : Prop where
  word0 : pairCheck s n (pairIssue (s.coreAt n) addr w0 w1 false) = .ok i0
  word1 : pairCheck s n (pairIssue (s.coreAt n) addr w0 w1 true) = .ok i1
  noPop : (s.coreAt n).popsOf i0 = []

/-- Word 0 of a pair on a state that word 1 has left: at once, or in the cycle in which the result of word 1's divide arrives. -/
def lastWord (n : Nat) (i0 i1 : Instr) (iss0 : Issue) (r : State) : Host.Outcome State Fault Refusal :=
  match onNext (exec i0 (r.withIssue n iss0)) (fun v => v.endParity n [i0, i1]) with
  | .next v => match r.partnerDue v n iss0.nom with
    | some due => onNext (exec i0 ((r.advanceTo due).withIssue n iss0)) (fun v => v.endParity n [i0, i1])
    | none => .next v
  | o => o

theorem lastWord_of_finishes {n : Nat} {i0 i1 : Instr} {iss0 : Issue} {r t : State} (h : Finishes n i0 i1 iss0 r t) :
    lastWord n i0 i1 iss0 r = .next t := by
  obtain ⟨v, hv, hdue⟩ := h
  simp only [lastWord, hv, onNext_next]
  cases hd : r.partnerDue (v.endParity n [i0, i1]) n iss0.nom with
  | none =>
    rw [hd] at hdue
    exact congrArg _ hdue.symm
  | some due =>
    rw [hd] at hdue
    obtain ⟨w, hw, ht⟩ := hdue
    simp only [hw, onNext_next, ht]

/-- What is left of a pair in the slot of state `s` once word 1 has left `r`: word 0, before which word 1's strip is stored where
nothing else keeps word 0 waiting. -/
def pairEnd (s : State) (n : Nat) (i0 i1 : Instr) (iss0 iss1 : Issue) (r : State) : Host.Outcome State Fault Refusal :=
  match lastWord n i0 i1 iss0 r with
  | .next t =>
    if (t.coreAt n).slot = .waiting then
      match r.pushNow n with
      | some (.ok _ r2) => onNext (lastWord n i0 i1 iss0 r2) (fun t' =>
          if (t'.coreAt n).slot = .waiting then s.holdPair n iss0 none else t')
      | some (.stop (.trap code tval)) => .next ((s.withIssue n iss1).trapNow code tval)
      | some (.stop (.wait x)) => .next (s.holdPair n iss0 (x.coreAt n).fpark)
      | _ => .next (s.holdPair n iss0 none)
    else .next t
  | o => o

theorem pairEnd_of_finishes {s r t : State} {n : Nat} {i0 i1 : Instr} {iss0 iss1 : Issue} (h : Finishes n i0 i1 iss0 r t)
    (hslot : (t.coreAt n).slot ≠ .waiting) : pairEnd s n i0 i1 iss0 iss1 r = .next t := by
  simp only [pairEnd, lastWord_of_finishes h, if_neg hslot]

theorem pairEnd_of_stored {s r r2 t t' : State} {n : Nat} {i0 i1 : Instr} {iss0 iss1 : Issue} {y : List Byte}
    (h : Finishes n i0 i1 iss0 r t) (hslot : (t.coreAt n).slot = .waiting) (hpush : r.pushNow n = some (.ok y r2))
    (h' : Finishes n i0 i1 iss0 r2 t') (hslot' : (t'.coreAt n).slot ≠ .waiting) :
    pairEnd s n i0 i1 iss0 iss1 r = .next t' := by
  simp only [pairEnd, lastWord_of_finishes h, if_pos hslot, hpush, lastWord_of_finishes h', onNext_next, if_neg hslot']

section
variable {s r0 r1 : State} {n : Nat} {addr : W64} {w0 w1 : W32} {i0 i1 : Instr}

/-- Word 0's wait, or its trap that is no `trap`, ends the slot without word 1's effect. -/
theorem runPair_word0_stops (hc : PairChecked s n addr w0 w1 i0 i1)
    (h0 : exec i0 (s.withIssue n (pairIssue (s.coreAt n) addr w0 w1 false)) = .next r0)
    (hstop : (r0.coreAt n).slot = .waiting ∨ ((r0.coreAt n).slot = .trapped ∧ ∀ k, i0 ≠ .trap k)) :
    runPair s n addr w0 w1 = .next r0 := by
  obtain ⟨hc0, hc1, hpop⟩ := hc
  simp only [pairIssue, Bool.false_eq_true, if_false, if_true] at hc0 hc1 h0
  simp only [runPair, hc0, hc1, hpop, h0]
  refine if_pos ((r0.stopped_iff n _).2 (hstop.imp_right fun ⟨ht, hk⟩ => ⟨ht, ?_⟩))
  split
  · exact absurd rfl (hk _)
  · rfl

/-- Where word 0 can go, or is `trap`, word 1 runs on what was there before the slot; its wait or trap ends the slot without word 0's
effect, and else word 0 ends the slot. -/
theorem runPair_word1 (hc : PairChecked s n addr w0 w1 i0 i1)
    (h0 : exec i0 (s.withIssue n (pairIssue (s.coreAt n) addr w0 w1 false)) = .next r0)
    (hgo : (r0.coreAt n).slot = .done ∨ ((r0.coreAt n).slot = .trapped ∧ ∃ k, i0 = .trap k))
    (h1 : exec i1 (s.withIssue n (pairIssue (s.coreAt n) addr w0 w1 true)) = .next r1) :
    runPair s n addr w0 w1 = if r1.stopped n false then .next r1 else
      pairEnd s n i0 i1 (pairIssue (s.coreAt n) addr w0 w1 false) (pairIssue (s.coreAt n) addr w0 w1 true) r1 := by
  obtain ⟨hc0, hc1, hpop⟩ := hc
  simp only [pairIssue, Bool.false_eq_true, if_false, if_true] at hc0 hc1 h0 h1 ⊢
  simp only [runPair, hc0, hc1, hpop, h0]
  rw [if_neg]
  · simp only [List.isEmpty_nil, Bool.not_true, Bool.false_eq_true, if_false, h1]
    rfl
  · rw [State.stopped_iff]
    rcases hgo with hd | ⟨ht, k, rfl⟩
    · simp [hd]
    · simp [ht]

theorem runPair_word1_stops (hc : PairChecked s n addr w0 w1 i0 i1)
    (h0 : exec i0 (s.withIssue n (pairIssue (s.coreAt n) addr w0 w1 false)) = .next r0)
    (hgo : (r0.coreAt n).slot = .done ∨ ((r0.coreAt n).slot = .trapped ∧ ∃ k, i0 = .trap k))
    (h1 : exec i1 (s.withIssue n (pairIssue (s.coreAt n) addr w0 w1 true)) = .next r1)
    (hstop : (r1.coreAt n).slot ≠ .done) : runPair s n addr w0 w1 = .next r1 := by
  rw [runPair_word1 hc h0 hgo h1, if_pos]
  rw [State.stopped_iff]
  cases hs : (r1.coreAt n).slot with
  | done => exact absurd hs hstop
  | trapped => exact .inr ⟨rfl, rfl⟩
  | waiting => exact .inl rfl

theorem runPair_word1_done (hc : PairChecked s n addr w0 w1 i0 i1)
    (h0 : exec i0 (s.withIssue n (pairIssue (s.coreAt n) addr w0 w1 false)) = .next r0)
    (hgo : (r0.coreAt n).slot = .done ∨ ((r0.coreAt n).slot = .trapped ∧ ∃ k, i0 = .trap k))
    (h1 : exec i1 (s.withIssue n (pairIssue (s.coreAt n) addr w0 w1 true)) = .next r1)
    (hdone : (r1.coreAt n).slot = .done) :
    runPair s n addr w0 w1
      = pairEnd s n i0 i1 (pairIssue (s.coreAt n) addr w0 w1 false) (pairIssue (s.coreAt n) addr w0 w1 true) r1 := by
  rw [runPair_word1 hc h0 hgo h1, if_neg]
  simp [State.stopped_iff, hdone]

end

/-- Settles O58: the step is the core's turn, the turn issues its slot, the slot fetches the bundle, and the bundle's words run, each
by the lemma that says what it does. -/
theorem stepRunsTheDecodedInstruction : Obligations.StepRunsTheDecodedInstruction := by
  unfold Obligations.StepRunsTheDecodedInstruction
  intro s s0 u0 ev b n sE c addr s1 after hturn hcore hfirm hrun hfpark hgpark hcause hsingle hopen hland hwalk hoff hfetch u
  have hclock : (sE.advanceTo c.ready).coreAt n = c := sE.coreAt_advanceTo c.ready n
  have hpc : (s1.coreAt n).t.pc = c.t.pc := (State.divideDue_pc _ n).trans (congrArg (·.t.pc) hclock)
  have hpl : (s1.coreAt n).pl = c.pl := (State.divideDue_pl _ n).trans (congrArg (·.pl) hclock)
  have hicache : (s1.coreAt n).icache = c.icache := (State.divideDue_icache _ n).trans (congrArg (·.icache) hclock)
  have hmembers : (s1.coreAt n).members = c.members := (State.divideDue_members _ n).trans (congrArg (·.members) hclock)
  have hissue : issueOne s1 n = runBundle u n c.t.pc b := by
    rw [← hpc]
    exact issueOne_bundle (by rw [hpc]) (by rw [hmembers, hpl]; exact hsingle.imp_left (·.2))
      (by rw [hpl, hicache]; exact hwalk) hoff hfetch
  have hstep : step s = onNext (runBundle u n c.t.pc b) after := by
    have hslot : slotTurn sE n = onNext (issueOne s1 n) (fun t => (s1.afterSlot [n] t).reclaimAsleep n) :=
      slotTurn_issues hsingle hfirm hrun hfpark hgpark hcause hopen hland
    rw [step_slot hturn hcore, hslot, onNext_onNext, hissue]
  constructor
  · intro w0 w1 d hkind odd w hdec
    rw [hstep, runBundle_lone hkind, runLone_decoded hdec, onNext_onNext]
  · intro w0 w1 i0 i1 r0 hkind stall iss0 iss1 hc0 hc1 hpop h0
    have hc : PairChecked u n addr w0 w1 i0 i1 := ⟨hc0, hc1, hpop⟩
    -- the step leaves what the pair leaves
    have hpair : ∀ t, runPair u n addr w0 w1 = .next t → step s = .next (after t) := fun t h => by
      rw [hstep, runBundle_pair hkind, h, onNext_next]
    refine ⟨fun hstop => hpair r0 (runPair_word0_stops hc h0 hstop), fun r1 hgo h1 =>
      ⟨fun hstop => hpair r1 (runPair_word1_stops hc h0 hgo h1 hstop), fun t hdone hfin => ?_⟩⟩
    have hend := runPair_word1_done hc h0 hgo h1 hdone
    exact ⟨fun hslot => hpair t (hend.trans (pairEnd_of_finishes hfin hslot)), fun y r2 t' hslot hpush hfin' hslot' =>
      hpair t' (hend.trans (pairEnd_of_stored hfin hslot hpush hfin' hslot'))⟩

end Sys2Proof.Machine
end

section
/-!
PROOFS. Decoding and encoding (03 R48, R67-R74).
-/
namespace Sys2Proof

/-- Settles O59: each of the thirteen words decodes by computation. -/
theorem wordsOfTheSpecDecode : Obligations.WordsOfTheSpecDecode := by
  unfold Obligations.WordsOfTheSpecDecode
  simp only [List.forall_mem_cons]
  exact ⟨rfl, rfl, rfl, rfl, rfl, rfl, rfl, rfl, rfl, rfl, rfl, rfl, rfl, List.forall_mem_nil _⟩

/-- The word of `vmovp` DIR 0 with the vector number 31 where a predicate number belongs: its bits 19:18, which are reserved for
this direction, are not zero. -/
theorem decodeWord_vmovp_31 : decodeWord 0x47BF8000 = .error .reserved := rfl

/-- Refutes O60: `isWord` holds of `vmovp 31, 0` of DIR 0, whose destination is one of the 8 predicate registers and not of the 32
vector registers, but the word that `encode` makes of it has a reserved field that is not zero. -/
theorem not_decodeAndEncodeAgree : ¬ Obligations.DecodeAndEncodeAgree := by
  unfold Obligations.DecodeAndEncodeAgree
  rintro ⟨h, -⟩
  obtain ⟨w, hw, hd⟩ := h ⟨0, 0, .vmovp 31 0 0 0⟩ rfl
  have h : w = 0x47BF8000 := Option.some.inj (hw.symm.trans rfl)
  rw [h, decodeWord_vmovp_31] at hd
  cases hd

end Sys2Proof
end

section
/-!
PROOFS. `nop`, trap entry, words above the level, and the causes that are taken between slots (03 R54, R56, R66, R75; 06 R140, R142,
R148).
-/
namespace Sys2Proof.Machine

/-- Settles O16: a `nop` takes no effect beyond the end of its slot. -/
theorem nopWordsChangeNothing : Obligations.NopWordsChangeNothing := by
  unfold Obligations.NopWordsChangeNothing
  intro s
  have retires (i : Instr) (h : Ready i s) (hexec : exec i s = runWord i s .ok) :
      exec i s = .next s.retire ∧ Retires i s s.retire := by
    have hnext : exec i s = .next s.retire := hexec.trans (runWord_ok h rfl)
    exact ⟨hnext, hnext, by simp⟩
  exact ⟨fun h => retires .nop h rfl, fun h => retires .nopA h rfl⟩

/-! ## What completing a thread's results leaves as it was (03 R61) -/

theorem Thread.endDiv_rest (t : Thread) : t.endDiv = { t with pend := t.endDiv.pend, flags := t.endDiv.flags, div := none } := by
  unfold Thread.endDiv
  split
  · next h => rw [← h]
  · rfl

theorem Thread.complete_rest (t : Thread) :
    t.complete = { t with s := t.complete.s, v := t.complete.v, p := t.complete.p, pend := t.complete.pend } := by
  unfold Thread.complete
  rw [Thread.foldl_land_rest]

/-- Completing the results touches the registers, what is on its way to them, FLAGS and the divider alone. -/
theorem Thread.finish_rest (t : Thread) :
    t.finish = { t with s := t.finish.s, v := t.finish.v, p := t.finish.p, pend := t.finish.pend, flags := t.finish.flags,
                        pendFlags := [], div := none } := by
  unfold Thread.finish
  rw [Thread.complete_rest, Thread.endDiv_rest]
  rfl

theorem Thread.finish_sameThread (t : Thread) : SameThread t t.finish := by
  rw [Thread.finish_rest]
  exact ⟨rfl, rfl, rfl, rfl, rfl, rfl, rfl, rfl, rfl, rfl, rfl, rfl⟩

@[simp] theorem Thread.finish_div (t : Thread) : t.finish.div = none := by rw [Thread.finish_rest]
@[simp] theorem Thread.finish_pendFlags (t : Thread) : t.finish.pendFlags = [] := by rw [Thread.finish_rest]

theorem Thread.endDiv_at (t : Thread) (pc : W64) (nom : Nat) : (t.at pc nom).endDiv = t.endDiv.at pc nom := by
  unfold Thread.endDiv
  show (match t.div with | none => _ | some d => _) = _
  cases t.div <;> rfl

theorem Thread.complete_at (t : Thread) (pc : W64) (nom : Nat) : (t.at pc nom).complete = t.complete.at pc nom :=
  Thread.foldl_land_at (t.pend.filter (fun e => e.visible.isSome)) { t with pend := t.pend.filter (fun e => e.visible.isNone) } pc nom

/-- Results complete the same at another PC and nominal time. -/
theorem Thread.finish_at (t : Thread) (pc : W64) (nom : Nat) : (t.at pc nom).finish = t.finish.at pc nom := by
  show (t.endFlags.at pc nom).endDiv.complete = _
  rw [Thread.endDiv_at, Thread.complete_at]
  rfl

/-! ## TCAUSE (06 Table 6-5) -/

theorem mkTcause_code (code : BitVec 8) (async : Bool) (ppl : BitVec 2) :
    (mkTcause code async ppl).extractLsb' 0 8 = code :=
  (BitVec.extractLsb'_append_eq_of_add_le (by decide)).trans BitVec.extractLsb'_eq_self

theorem mkTcause_ppl (code : BitVec 8) (async : Bool) (ppl : BitVec 2) :
    (mkTcause code async ppl).extractLsb' 20 2 = ppl :=
  (BitVec.extractLsb'_append_eq_of_le (by decide)).trans <| (BitVec.extractLsb'_append_eq_of_le (by decide)).trans <|
    (BitVec.extractLsb'_append_eq_of_add_le (by decide)).trans BitVec.extractLsb'_eq_self

theorem mkTcause_async (code : BitVec 8) (async : Bool) (ppl : BitVec 2) :
    (mkTcause code async ppl).getLsbD 22 = async := by
  unfold mkTcause
  rw [BitVec.getLsbD_append, BitVec.getLsbD_append, BitVec.getLsbD_append, BitVec.getLsbD_append]
  cases async <;> simp

/-- The other fields of TCAUSE are 0 outside a cordon. -/
theorem mkTcause_rest (code : BitVec 8) (async : Bool) (ppl : BitVec 2) :
    mkTcause code async ppl &&& 0xFFFF_FFFF_FF8F_FF00 = 0 := by
  have hmask : (0xFFFF_FFFF_FF8F_FF00 : W64)
      = BitVec.allOnes 32 ++ BitVec.allOnes 8 ++ 1#1 ++ 0#1 ++ 0#2 ++ BitVec.allOnes 12 ++ 0#8 := rfl
  unfold mkTcause
  rw [hmask, BitVec.and_append, BitVec.and_append, BitVec.and_append, BitVec.and_append, BitVec.and_append, BitVec.and_append]
  simp

/-! ## Entering a trap (06 R140) -/

theorem toNat_and_56 (x : W64) : (x &&& 0x00FF_FFFF_FFFF_FFFF).toNat = x.toNat % 2 ^ 56 := by
  rw [BitVec.toNat_and]
  exact Nat.and_two_pow_sub_one_eq_mod x.toNat 56

/-- The core in its trap routine: at a level and a PC, with the cause saved and the thread's results complete. -/
def Core.entered (c : Core) (code : BitVec 8) (tval : W64) (async : Bool) (resume : W64) (level : BitVec 2) (pc : W64) : Core :=
  { c with t := { c.t.finish with nom := 0, pc := pc }, tpc := resume &&& 0x00FF_FFFF_FFFF_FFFF,
           tcause := mkTcause code async c.pl, tval := tval, slot := .trapped, txn := .none, fpark := none, silent := none,
           gpark := none, listed := none, ready := max c.ready c.t.divDue, pl := level, run := .running }

section
variable (c : Core) {code : BitVec 8} (tval : W64) (async : Bool) (resume quiesce : W64)

/-- A trap that is no region event goes to TVEC from user level and to MVEC from supervisor level. -/
theorem Core.takeTrap_raises (hq : code ≠ cQuiescent) (hw : code ≠ cWeightLost) (hpl : c.pl = 0 ∨ c.pl = 1) :
    c.takeTrap code tval async resume quiesce
      = c.entered code tval async resume (c.pl + 1) (if c.pl = 0 then c.tvec else c.mvec) := by
  have hcode : ¬ (code = cQuiescent ∨ code = cWeightLost) := not_or.2 ⟨hq, hw⟩
  unfold Core.takeTrap Core.entered
  rcases hpl with hpl | hpl <;> (simp only [if_neg hcode, hpl]; rfl)

theorem Core.takeTrap_user (hq : code ≠ cQuiescent) (hw : code ≠ cWeightLost) (hpl : c.pl = 0) :
    c.takeTrap code tval async resume quiesce = c.entered code tval async resume 1 c.tvec := by
  rw [Core.takeTrap_raises c tval async resume quiesce hq hw (.inl hpl), if_pos hpl, hpl]
  rfl

/-- A region event goes to its entry at supervisor level. -/
theorem Core.takeTrap_region (h : code = cQuiescent ∨ code = cWeightLost) :
    c.takeTrap code tval async resume quiesce = c.entered code tval async resume 1 quiesce :=
  if_pos h

end

/-- A core that has entered its trap routine did so as the rule says. -/
theorem enters_entered {s t : State} {code : BitVec 8} {tval resume pc : W64} {async : Bool} {level : BitVec 2}
    (honly : OnlyCur s t) (h : t.cur = s.cur.entered code tval async resume level pc) :
    Enters s t code tval resume async level pc := by
  constructor
  case only => exact honly
  all_goals rw [h]
  case pl => rfl
  case pc => rfl
  case tpc => exact toNat_and_56 resume
  case tval => rfl
  case code => exact mkTcause_code code async s.cur.pl
  case ppl => exact mkTcause_ppl code async s.cur.pl
  case async => exact mkTcause_async code async s.cur.pl
  case rest => exact mkTcause_rest code async s.cur.pl
  case nom => rfl
  case regs => exact ⟨rfl, rfl, rfl, rfl, s.cur.t.finish_div, s.cur.t.finish_pendFlags⟩
  case kept => exact ⟨s.cur.t.finish_sameThread, rfl, rfl, rfl, rfl, rfl, rfl, rfl, rfl, rfl, rfl, rfl, rfl, rfl⟩

/-- So did one that enters at supervisor level, whatever becomes of the causes that are pending at it. -/
theorem trapped_entered {s t : State} {c : Core} {code : BitVec 8} {tval resume pc : W64} {async : Bool} {preempt : Bool}
    {events : List (BitVec 8 × W32)}
    (h : t.cur = { c.entered code tval async resume 1 pc with preempt := preempt, events := events }) :
    Trapped s t code tval resume pc := by
  constructor <;> rw [h]
  case pl => rfl
  case run => rfl
  case pc => rfl
  case code => exact mkTcause_code code async c.pl
  case tval => rfl
  case tpc => exact toNat_and_56 resume

/-- The trap of a word, where every earlier one has cleared. -/
theorem State.trapNow_cleared {s : State} {code : BitVec 8} (hcode : code ≠ cUserTrap) (h : s.cur.uncleared = false) (tval : W64) :
    s.trapNow code tval = s.modCur (fun c => c.takeTrap code tval false c.iss.pc 0) := by
  simp only [State.trapNow, h, Bool.false_eq_true, if_false, if_neg hcode]

/-- A word's trap below machine level enters the routine of the next level. -/
theorem trapNow_enters {s : State} {code : BitVec 8} (tval : W64) (h : s.cur.uncleared = false) (hpl : s.cur.pl = 0 ∨ s.cur.pl = 1)
    (hu : code ≠ cUserTrap) (hq : code ≠ cQuiescent) (hw : code ≠ cWeightLost) :
    Enters s (s.trapNow code tval) code tval s.cur.iss.pc false (s.cur.pl + 1) (if s.cur.pl = 0 then s.cur.tvec else s.cur.mvec) := by
  rw [State.trapNow_cleared hu h, State.modCur_eq, Core.takeTrap_raises _ tval false s.cur.iss.pc 0 hq hw hpl]
  exact enters_entered (by rw [OnlyCur, State.cur_setCur]) (State.cur_setCur s _)

/-! ## Words above the running level (03 R75) -/

/-- The level of a word of Table 3-9, which is above user level. -/
theorem levelOf_of_levelSpec {i : Instr} {l : BitVec 2} (h : levelSpec i l) : levelOf i = l ∧ l ≠ 0 := by
  cases i <;> simp_all [levelSpec, levelOf]

/-- A word above user level is run by `runWord`. -/
theorem exec_privileged {i : Instr} (h : levelOf i ≠ 0) (s : State) : ∃ body, exec i s = runWord i s body := by
  cases i
  case tret | caskopen | caskseal | idle | plbw | plbinv | preempt | ctxsave | ctxload | wvint | errinj | kload | kzero | scrub
    | assign | release | linkkey => dsimp only [exec]; exact ⟨_, rfl⟩
  all_goals exact absurd rfl h

/-- No level is above machine level. -/
theorem levelOf_le (i : Instr) : levelOf i ≤ 2 := by
  unfold levelOf
  split <;> decide

theorem Core.issueCheck_privileged {c : Core} {i : Instr} (hf : fieldsOk i = true) (hs : stateOk c i = true) (hl : c.pl < levelOf i) :
    c.issueCheck i = some (cPrivileged, privilegedTval c.iss.word1 c.iss.insn) := by
  simp [Core.issueCheck, hf, hs, hl]

theorem privilegedTval_eq (word1 : Bool) (insn : W32) :
    privilegedTval word1 insn = insn.setWidth 64 ||| (if word1 then 0x1_0000_0000 else 0) := by
  have hindex : (if word1 then 0x1_0000_0000 else 0 : W64) = (0#31 ++ if word1 then 1#1 else 0#1) ++ 0#32 := by
    cases word1 <;> rfl
  have hword : insn.setWidth 64 = 0#32 ++ insn := BitVec.setWidth_eq_append (by decide)
  rw [hindex, hword, BitVec.or_append]
  simp [privilegedTval]

/-- Settles O53: the word's level is checked after its fields, and the trap that it takes below machine level is a trap entry. -/
theorem wordsAboveTheLevelArePrivileged : Obligations.WordsAboveTheLevelArePrivileged := by
  unfold Obligations.WordsAboveTheLevelArePrivileged
  intro i s l hlevel hpl hfields hstate hclear
  obtain ⟨hl, hne⟩ := levelOf_of_levelSpec hlevel
  have hle : l ≤ 2 := by
    rw [← hl]
    exact levelOf_le i
  have hbelow : s.cur.pl = 0 ∨ s.cur.pl = 1 := by bv_omega
  obtain ⟨body, hexec⟩ := exec_privileged (hl ▸ hne) s
  refine ⟨_, hexec.trans (runWord_refused body (Core.issueCheck_privileged hfields hstate (hl ▸ hpl))), ?_⟩
  rw [← privilegedTval_eq]
  exact trapNow_enters _ hclear hbelow (by decide) (by decide) (by decide)

/-! ## Causes between slots (06 R142) -/

theorem State.cordonOf_alone {s : State} {n : Nat} (hl : (s.coreAt n).leader = none) (hm : (s.coreAt n).members = []) :
    s.cordonOf n = [n] := by
  simp [State.cordonOf, hl, hm]

/-- What every step of a fold keeps, the fold keeps. -/
theorem foldl_keeps {α β γ : Type} (view : β → γ) {f : β → α → β} (h : ∀ b a, view (f b a) = view b) (l : List α) (b : β) :
    view (l.foldl f b) = view b := by
  induction l generalizing b with
  | nil => rfl
  | cons a l ih => exact (ih (f b a)).trans (h b a)

@[simp] theorem Core.holdLanes_pc (c : Core) : c.holdLanes.t.pc = c.t.pc := foldl_keeps (·.t.pc) (by intros; rfl) _ c

/-- The core as a cancelled word leaves it that had begun nothing. -/
def Core.cancelled (c : Core) : Core := { c with txn := .none, fpark := none, listed := none }

theorem Core.holdLanes_quiet {c : Core} (h : c.mem = []) : c.holdLanes = c := by
  unfold Core.holdLanes
  simp only [h, List.filter_nil, List.map_nil, List.eraseDups_nil, List.foldl_nil]

/-- A core that has no access out and is in no transaction is at the boundary once its word is cancelled. -/
theorem State.atBoundary_quiet {s : State} {n : Nat} (htxn : (s.coreAt n).txn = .none) (hgpark : (s.coreAt n).gpark = none)
    (hmem : (s.coreAt n).mem = []) (hclear : (s.coreAt n).uncleared = false) :
    s.atBoundary n = some (s.modCore n Core.cancelled) := by
  have hparked : s.cancelParked n true = s := by simp [State.cancelParked, hmem, findAt]
  have hcancel : s.cancel n = s.modCore n Core.cancelled := by
    unfold State.cancel
    simp only [htxn]
    rfl
  have hhold : (s.modCore n Core.cancelled).modCore n Core.holdLanes = s.modCore n Core.cancelled := by
    simp only [State.modCore, State.coreAt_setCore, State.setCore_setCore]
    rw [Core.holdLanes_quiet (c := (s.coreAt n).cancelled) hmem]
  have hclear' : ((s.modCore n Core.cancelled).coreAt n).uncleared = false := by
    rw [State.coreAt_modCore]
    exact hclear
  unfold State.atBoundary
  simp only [hparked, hcancel, hhold, hclear', Core.cancellable, htxn, hgpark]
  simp

/-- A core outside a cordon that is at the boundary before its next slot enters PREEMPT's routine there. -/
theorem State.preemptNow_alone {s : State} {n : Nat} (hl : (s.coreAt n).leader = none) (hm : (s.coreAt n).members = []) {c : Core}
    (h : s.atBoundary n = some (s.setCore n c)) :
    s.preemptNow n = s.setCore n { c.takeTrap cPreempt (c.ctxid.setWidth 64) true c.t.pc 0 with preempt := false } := by
  unfold State.preemptNow State.preemptAll
  simp only [State.cordonOf_alone hl hm, List.foldl_cons, List.foldl_nil, Option.bind_some, h]
  simp [State.modCore]

theorem State.coreAt_current (s : State) : s.coreAt s.ev.core = s.cur := rfl

theorem preemptTrap_entered {s : State} (hp : s.cur.preempt = true) (halone : Alone s) (hrun : s.cur.run = .running)
    (hdet : s.isDet s.cur = false) (htxn : s.cur.txn = .none) (hgpark : s.cur.gpark = none) (hmem : s.cur.mem = [])
    (hclear : s.cur.uncleared = false) :
    exec .preemptTrap s = .next (s.setCur { s.cur.cancelled.entered cPreempt (s.cur.ctxid.setWidth 64) true s.cur.t.pc 1 s.cur.tvec
      with preempt := false }) := by
  obtain ⟨hpl, hl, hm⟩ := halone
  have hexec : exec .preemptTrap s = .next (s.preemptNow s.ev.core) := by
    show execPreemptTrap s = _
    simp [execPreemptTrap, State.coreAt_current, hrun, hp, hpl, hl, hdet]
  have henter : s.cur.cancelled.takeTrap cPreempt (s.cur.ctxid.setWidth 64) true s.cur.t.pc 0 = _ :=
    Core.takeTrap_user s.cur.cancelled _ _ _ _ (by decide) (by decide) hpl
  rw [hexec, State.preemptNow_alone hl hm (State.atBoundary_quiet htxn hgpark hmem hclear)]
  exact congrArg (fun c : Core => Host.Outcome.next (s.setCur { c with preempt := false })) henter

theorem regionEventTrap_entered {s : State} {code : BitVec 8} {id : W32} {rest : List (BitVec 8 × W32)} {x : Ctx}
    (hrun : s.cur.run = .waking) (hp : s.cur.preempt = false) (hev : s.cur.events = (code, id) :: rest)
    (hcode : code = cQuiescent ∨ code = cWeightLost) (hx : s.ctx? id.toNat = some x) :
    exec .regionEventTrap s = .next (s.setCur { s.cur.holdLanes.entered code (id.setWidth 64) true s.cur.t.pc 1 x.rcb.quiesce
      with events := rest }) := by
  have hexec : exec .regionEventTrap s = .next (s.takeAsync s.ev.core) := by
    show execRegionEventTrap s = _
    simp [execRegionEventTrap, State.coreAt_current, hrun, hp, hev]
  rw [hexec]
  simp only [State.takeAsync, State.coreAt_current, hp, hev, hx, State.modCore, Core.takeTrap_region _ _ _ _ _ hcode]
  rfl

/-- The oldest packet in flight is the one that a step concerns. -/
theorem First.packet {s : State} {p : Packet} {rest : List Packet} (h : First s p rest) {ok : Packet → Bool} (hok : ok p = true) :
    s.packet ok = some (0, p) := by
  obtain ⟨hnet, hpick, hlate⟩ := h
  have hbehind : s.behind 0 p = false := by simp [State.behind, hlate]
  simp [State.packet, hnet, hpick, List.range_succ_eq_map, hok, hbehind]

theorem First.dropPacket {s : State} {p : Packet} {rest : List Packet} (h : First s p rest) : s.dropPacket 0 = { s with net := rest } := by
  simp [State.dropPacket, h.net, dropAt]

/-- The core as a yield request or its withdrawal leaves it. -/
def Core.asked (c : Core) (on : Bool) : Core := { c with yreq := on, preempt := on && decide (c.run ≠ .idle) }

/-- A yield request, or its withdrawal, at its core: the packet is taken, and a pop request that it overtakes is taken back. -/
theorem yieldRequestArrival_first {s : State} {p : Packet} {rest : List Packet} {on : Bool} (h : First s p rest)
    (hdest : p.dest = .core s.ev.core) (hbody : p.body = .yreq on) (hctx : p.ctx = s.cur.ctxid.toNat) :
    exec .yieldRequestArrival s = .next (
      if on = true ∧ s.cur.popReq = true then
        { s.setCur { s.cur.asked on with popReq := false } with
            net := rest ++ [{ src := s.ev.core, dest := .home p.ctx, ctx := p.ctx, body := .unpop }] }
      else { s with net := rest }.setCur (s.cur.asked on)) := by
  obtain ⟨src, dest, ctx, body, parked, arrived, level, region, since⟩ := p
  dsimp only at hbody hctx
  subst hbody
  show execYieldRequestArrival s = _
  dsimp only [execYieldRequestArrival]
  rw [h.packet (by simpa using hdest)]
  have hcur : ({ s with net := rest } : State).coreAt s.ev.core = s.cur := rfl
  simp only [h.dropPacket, hcur, hctx, ne_eq, not_true_eq_false, if_false, State.modCore, State.coreAt_setCore,
    State.setCore_setCore]
  rfl

/-! ## Traps of the issue stage (03 R54, R74) -/

theorem State.slotTrap_alone {s : State} {n : Nat} (hl : (s.coreAt n).leader = none) (hm : (s.coreAt n).members = [])
    (causes : List (Nat × BitVec 8 × W64)) (resume : W64) (alone : State) : s.slotTrap n causes resume alone = alone := by
  simp [State.slotTrap, State.cordonOf_alone hl hm]

/-- The current core of a state in which core `n` issues a word. -/
theorem State.cur_withIssue (s : State) (n : Nat) (iss : Issue) : (s.withIssue n iss).cur = { s.coreAt n with iss := iss } :=
  State.coreAt_modCore s n (fun c => { c with iss := iss })

/-- A trap of the issue stage at user level, where every earlier word has cleared. -/
theorem State.issueTrap_trapped {s s0 : State} {n : Nat} {code : BitVec 8} (hclear : (s.coreAt n).uncleared = false)
    (hpl : (s.coreAt n).pl = 0) (hu : code ≠ cUserTrap) (hq : code ≠ cQuiescent) (hw : code ≠ cWeightLost) (pc : W64) (word1 : Bool)
    (insn : W32) (tval : W64) :
    Trapped s0 (s.issueTrap n pc word1 insn code tval) code tval pc (s.coreAt n).tvec := by
  have hcur := s.cur_withIssue n (issueOf (s.coreAt n) pc pc word1 false insn 0)
  -- the core that issues the word: of it only these facts matter
  generalize hc : ({ s.coreAt n with iss := issueOf (s.coreAt n) pc pc word1 false insn 0 } : Core) = c at hcur
  have hclear' : c.uncleared = false := by rw [← hc]; exact hclear
  have hpl' : c.pl = 0 := by rw [← hc]; exact hpl
  have htvec : c.tvec = (s.coreAt n).tvec := by rw [← hc]
  have hpc : c.iss.pc = pc := by rw [← hc]; rfl
  rw [State.issueTrap, State.trapNow_cleared hu (by rw [hcur]; exact hclear'), ← htvec]
  refine trapped_entered (c := c) (async := false) (preempt := c.preempt) (events := c.events) ((State.cur_modCur _ _).trans ?_)
  rw [hcur, hpc]
  exact Core.takeTrap_user c tval false pc 0 hq hw hpl'

/-- A fetch changes nothing of its core but the bundles that it has fetched. -/
theorem State.fetch_bundle {s u : State} {n : Nat} {a b : W64} (h : s.fetch n a = .bundle b u) :
    u.ev = s.ev ∧ ∃ f, u.coreAt n = { s.coreAt n with icache := f } := by
  unfold State.fetch at h
  dsimp only at h
  split at h
  · cases h
  split at h
  · cases h
  split at h
  · cases h
  split at h
  · cases h
    exact ⟨rfl, _, rfl⟩
  split at h
  · next hread =>
    cases h
    have hcore : ∀ m, State.coreAt _ m = s.coreAt m := fun m => congrArg (FMap.getD · m Core.reset) (State.readLocs_ok hread).cores
    exact ⟨(State.readLocs_ok hread).ev, _, (State.coreAt_modCore _ n _).trans (by rw [hcore])⟩
  · cases h
  · cases h

/-- The causes of a failing fetch are neither `trap`'s nor a region event's. -/
theorem fetchCause_codes {code : BitVec 8} (h : code ∈ [cUnitAbsent, cBadAddress, cProtection, cEcc, cPageFault]) :
    code ≠ cUserTrap ∧ code ≠ cQuiescent ∧ code ≠ cWeightLost := by
  revert code
  decide

section
variable {s : State} (hfirm : s.firmware = true) (hcan : s.cur.canIssue = true) (hclear : s.cur.uncleared = false) (halone : Alone s)
include hfirm hcan hclear halone

/-- A bundle that is illegal before its word runs traps at the word (03 R56). -/
theorem illegalInstruction_trapped {b : W64} {u : State} {word1 : Bool} {insn : W32} {reason : BitVec 3}
    (hfetch : s.fetch s.ev.core (s.cur.t.pc &&& ~~~(7 : W64)) = .bundle b u)
    (hillegal : s.cur.illegalAt s.cur.t.pc b = some (word1, insn, reason)) :
    ∃ t, exec .illegalInstruction s = .next t
      ∧ Trapped s t cIllegal (illegalTval reason word1 insn) (wordPc s.cur.t.pc b word1) s.cur.tvec := by
  obtain ⟨hpl, hl, hm⟩ := halone
  obtain ⟨-, f, hcore⟩ := State.fetch_bundle hfetch
  have hslot (causes resume alone) : u.slotTrap s.ev.core causes resume alone = alone :=
    State.slotTrap_alone (by rw [hcore]; exact hl) (by rw [hcore]; exact hm) causes resume alone
  have hexec : exec .illegalInstruction s = .next (u.illegalTrap s.ev.core b (word1, insn, reason)) := by
    show execIllegalInstruction s = _
    simp only [execIllegalInstruction, State.coreAt_current, hfirm, hcan, hfetch, hillegal, hslot, Bool.and_self, if_true]
  have hpc : (u.coreAt s.ev.core).t.pc = s.cur.t.pc := by rw [hcore]; rfl
  have htvec : (u.coreAt s.ev.core).tvec = s.cur.tvec := by rw [hcore]; rfl
  refine ⟨_, hexec, ?_⟩
  rw [← hpc, ← htvec]
  exact State.issueTrap_trapped (by rw [hcore]; exact hclear) (by rw [hcore]; exact hpl) (by decide) (by decide) (by decide) ..

/-- A fetch that fails traps at the slot, with the address of the bundle (03 R54). -/
theorem fetchFault_trapped {code : BitVec 8} (hcause : s.fetchCause s.ev.core = some code)
    (hcode : code ∈ [cUnitAbsent, cBadAddress, cProtection, cEcc, cPageFault]) :
    ∃ t, exec .fetchFault s = .next t
      ∧ Trapped s t code (faultTval code (s.cur.t.pc &&& ~~~(7 : W64))) s.cur.t.pc s.cur.tvec := by
  obtain ⟨hpl, hl, hm⟩ := halone
  obtain ⟨hu, hq, hw⟩ := fetchCause_codes hcode
  have hexec : exec .fetchFault s = .next (s.fetchTrap s.ev.core code) := by
    show execFetchFault s = _
    simp only [execFetchFault, State.coreAt_current, hfirm, hcan, hcause, State.fetchFail, State.slotTrap_alone hl hm,
      Bool.and_self, if_true]
  exact ⟨_, hexec, State.issueTrap_trapped hclear hpl hu hq hw s.cur.t.pc false 0 _⟩

end

/-- Settles O46: each step's condition holds, so that it is what the rule says: the trap entry of the cause, or the packet taken. -/
theorem causesBetweenSlotsAreTaken : Obligations.CausesBetweenSlotsAreTaken := by
  unfold Obligations.CausesBetweenSlotsAreTaken
  intro s pc
  refine ⟨?preempt, ?region, ?yreq, fun hfirm hcan hclear halone => ⟨?illegal, ?fetch⟩⟩
  case preempt =>
    intro hp halone hrun hdet htxn hgpark hmem hclear
    have hcur := s.cur_setCur
      { s.cur.cancelled.entered cPreempt (s.cur.ctxid.setWidth 64) true s.cur.t.pc 1 s.cur.tvec with preempt := false }
    refine ⟨_, preemptTrap_entered hp halone hrun hdet htxn hgpark hmem hclear, trapped_entered hcur, ?_, ?_⟩
    · rw [hcur]
    · rw [hcur]
      exact mkTcause_async ..
  case region =>
    intro code id rest x hrun hp hev hcode hx
    have hcur := s.cur_setCur { s.cur.holdLanes.entered code (id.setWidth 64) true s.cur.t.pc 1 x.rcb.quiesce with events := rest }
    refine ⟨_, regionEventTrap_entered hrun hp hev hcode hx, trapped_entered hcur, ?_, ?_⟩
    · rw [hcur]
    · rw [hcur]
      exact mkTcause_async ..
  case yreq =>
    intro p rest on hfirst hdest hbody hctx
    refine ⟨_, yieldRequestArrival_first hfirst hdest hbody hctx, ?_⟩
    by_cases hpop : on = true ∧ s.cur.popReq = true
    · rw [if_pos hpop]
      have hcur := s.cur_setCur { s.cur.asked on with popReq := false }
      exact ⟨congrArg (·.yreq) hcur, fun h => by simp [h] at hpop, fun _ _ => ⟨congrArg (·.popReq) hcur, rfl⟩,
        congrArg (·.preempt) hcur⟩
    · rw [if_neg hpop]
      have hcur := ({ s with net := rest } : State).cur_setCur (s.cur.asked on)
      exact ⟨congrArg (·.yreq) hcur, fun _ => rfl, fun hon hreq => absurd ⟨hon, hreq⟩ hpop, congrArg (·.preempt) hcur⟩
  case illegal => exact fun b u word1 insn reason => illegalInstruction_trapped hfirm hcan hclear halone
  case fetch => exact fun code => fetchFault_trapped hfirm hcan hclear halone

end Sys2Proof.Machine
end

section
/-!
PROOFS. `tret` (06 R152, R144).
-/
namespace Sys2Proof.Machine

/-! ## Changes of several cores -/

/-- What a change of a core keeps, it keeps at every core. -/
theorem State.modCore_keeps {γ : Type} (view : Core → γ) {f : Core → Core} (h : ∀ c, view (f c) = view c) (s : State) (n m : Nat) :
    view ((s.modCore n f).coreAt m) = view (s.coreAt m) := by
  by_cases hm : m = n
  · rw [hm, State.coreAt_modCore, h]
  · rw [State.coreAt_modCore_ne s f hm]

/-- What each of several changes keeps at a core, all of them keep at every core. -/
theorem State.foldl_modCore_keeps {α γ : Type} (view : Core → γ) {core : α → Nat} {f : α → Core → Core}
    (h : ∀ a c, view (f a c) = view c) (l : List α) (s : State) (m : Nat) :
    view ((l.foldl (fun s a => s.modCore (core a) (f a)) s).coreAt m) = view (s.coreAt m) :=
  foldl_keeps (fun s : State => view (s.coreAt m)) (fun s a => s.modCore_keeps view (h a) (core a) m) l s

/-- A change made at every core of a list holds at each of them. -/
theorem State.foldl_modCore_sets {P : Core → Prop} {f : Core → Core} (h : ∀ c, P (f c)) (s : State) {l : List Nat} {m : Nat}
    (hm : m ∈ l) : P ((l.foldl (fun s k => s.modCore k f) s).coreAt m) := by
  -- the last change of the core is the one that counts
  rw [← List.reverse_reverse l, List.foldl_reverse]
  rw [← List.mem_reverse] at hm
  generalize l.reverse = r at hm ⊢
  induction r with
  | nil => cases hm
  | cons k r ih =>
    rw [List.foldr_cons]
    by_cases hk : m = k
    · rw [hk, State.coreAt_modCore]
      exact h _
    · rw [State.coreAt_modCore_ne _ f hk]
      exact ih ((List.mem_cons.1 hm).resolve_left hk)

theorem State.cordonOf_modCore {f : Core → Core} (hl : ∀ c, (f c).leader = c.leader) (hm : ∀ c, (f c).members = c.members)
    (s : State) (k n : Nat) : (s.modCore k f).cordonOf n = s.cordonOf n := by
  simp only [State.cordonOf, s.modCore_keeps (·.leader) hl, s.modCore_keeps (·.members) hm]

@[simp] theorem State.cordonOf_retire (s : State) (n : Nat) : s.retire.cordonOf n = s.cordonOf n :=
  State.cordonOf_modCore (f := Core.retire) (fun _ => rfl) (fun _ => rfl) s s.ev.core n

/-! ## The return of one core -/

/-- A core that has returned from its trap. -/
def Core.returned (c : Core) (cycle : Nat) (v : CodeView) : Core :=
  let toIdle : Bool := decide (c.pl = 1) && decide (c.ppl ≠ 0) && decide (c.idleAt = some c.tpc)
  { c.trapReturn.coherent v with
    ready := max (cycle + 6 + c.iss.stall) c.t.divDue, tretWait := false, tretGo := false, slot := .done
    run := if toIdle && c.asyncPending then .waking else c.run
    idleAt := if c.pl = 1 && !(toIdle && c.asyncPending) then none else c.idleAt }

theorem State.returnOf_eq (s : State) (n : Nat) :
    s.returnOf n = s.modCore n (fun c => c.returned s.cycle (s.codeFor n)) := rfl

theorem State.cur_returnOf {s : State} {n : Nat} (h : s.ev.core = n) :
    (s.returnOf n).cur = s.cur.returned s.cycle (s.codeFor n) := by
  subst h
  exact s.cur_modCur (fun c => c.returned s.cycle (s.codeFor s.ev.core))

/-- Fetch sees memory itself where every store of the core has been performed. -/
theorem State.codeFor_performed {s : State} {n : Nat} (h : ∀ x ∈ (s.coreAt n).mem, x.isStore = true → x.performed = true) :
    s.codeFor n = s.codeView := by
  unfold State.codeFor
  generalize hl : (s.coreAt n).mem = l at h
  clear hl
  induction l with
  | nil => rfl
  | cons x l ih =>
    have hx : (x.isStore && !x.performed) = false := by
      cases hs : x.isStore
      · rfl
      · simp [h x List.mem_cons_self hs]
    rw [List.foldl_cons]
    simp only [hx, Bool.false_eq_true, if_false]
    exact ih (fun y hy => h y (List.mem_cons_of_mem x hy))

/-- The core with another place in its cordon. -/
def Core.inLane (c : Core) (lane : BitVec 4) (cordsz : BitVec 5) : Core := { c with lane := lane, cordsz := cordsz }

/-- The cordon of one core has one lane. -/
theorem State.renumber_alone {s : State} {n : Nat} (h : s.cordonOf n = [n]) :
    s.renumber n = s.modCore n (fun c => c.inLane 0 1) := by
  unfold State.renumber
  rw [h]
  rfl

/-- Numbering the lanes again keeps what a lane number leaves. -/
theorem State.renumber_keeps {γ : Type} (view : Core → γ) (h : ∀ c lane cordsz, view (Core.inLane c lane cordsz) = view c) (s : State)
    (n m : Nat) : view ((s.renumber n).coreAt m) = view (s.coreAt m) :=
  State.foldl_modCore_keeps view (f := fun _ c => c.inLane _ _) (fun _ c => h c _ _) _ s m

@[simp] theorem State.renumber_ev (s : State) (n : Nat) : (s.renumber n).ev = s.ev :=
  foldl_keeps State.ev (f := fun s (e : Nat × Nat) => s.modCore e.1 (fun c => c.inLane _ _)) (fun _ _ => rfl) _ s

theorem State.cordonOf_returnOf (s : State) (k n : Nat) : (s.returnOf k).cordonOf n = s.cordonOf n :=
  State.cordonOf_modCore (f := fun c => c.returned s.cycle (s.codeFor k)) (fun _ => rfl) (fun _ => rfl) s k n

/-- A return that completes is of the current core alone: it is at TPC at the level of TCAUSE.PPL, in the place that it has in its
cordon then. -/
structure Returned (s t : State) : Prop where
  only : OnlyCur s t
  core : ∃ lane cordsz, t.cur = (s.cur.retire.returned s.cycle (s.retire.codeFor s.ev.core)).inLane lane cordsz

theorem returned_setCur (s : State) (lane : BitVec 4) (cordsz : BitVec 5) :
    Returned s (s.setCur ((s.cur.retire.returned s.cycle (s.retire.codeFor s.ev.core)).inLane lane cordsz)) :=
  ⟨by rw [OnlyCur, State.cur_setCur], lane, cordsz, State.cur_setCur s _⟩

theorem State.returnOf_retire (s : State) :
    s.retire.returnOf s.ev.core = s.setCur (s.cur.retire.returned s.cycle (s.retire.codeFor s.ev.core)) :=
  s.retire_modCur (fun c => c.returned s.cycle (s.retire.codeFor s.ev.core))

theorem returned_returnOf (s : State) : Returned s (s.retire.returnOf s.ev.core) := by
  rw [State.returnOf_retire]
  exact returned_setCur s s.cur.lane s.cur.cordsz

theorem returned_renumber {s : State} (hl : s.cur.leader = none) (hm : s.cur.members = []) :
    Returned s ((s.retire.returnOf s.ev.core).renumber s.ev.core) := by
  have hcordon : (s.retire.returnOf s.ev.core).cordonOf s.ev.core = [s.ev.core] := by
    rw [State.cordonOf_returnOf, State.cordonOf_retire]
    exact State.cordonOf_alone hl hm
  rw [State.renumber_alone hcordon, State.returnOf_retire]
  have hset := s.modCur_setCur (s.cur.retire.returned s.cycle (s.retire.codeFor s.ev.core)) (fun c => c.inLane 0 1)
  exact Eq.mpr (congrArg (Returned s) hset) (returned_setCur s 0 1)

/-- The thread of a core that returns: its results are complete, and it goes on at TPC. -/
theorem Core.retire_returned_t (c : Core) (cycle : Nat) (v : CodeView) :
    (c.retire.returned cycle v).t = c.t.finish.at c.tpc 0 := by
  show c.retire.t.finish.at c.tpc 0 = _
  rw [Core.retire_t, Thread.finish_at]
  rfl

/-! ## `tret` -/

/-- The state in which a core has reached the `tret` at which its cordon meets. -/
def State.atTret (s : State) : State := s.retire.modCur (fun c => { c with tretWait := true })

theorem State.atTret_eq (s : State) : s.atTret = s.setCur { s.cur.retire with tretWait := true } :=
  s.retire_modCur _

theorem State.coreAt_atTret (s : State) : s.atTret.coreAt s.ev.core = { s.cur.retire with tretWait := true } := by
  rw [State.atTret_eq]
  exact State.coreAt_setCore ..

theorem State.coreAt_atTret_ne {s : State} {m : Nat} (h : m ≠ s.ev.core) : s.atTret.coreAt m = s.coreAt m := by
  rw [State.atTret_eq]
  exact State.coreAt_setCore_ne s _ h

/-- The cores of a cordon that has met at `tret` may return, each at its own slot. -/
def State.letGo (s : State) (ms : List Nat) : State :=
  ms.foldl (fun (s : State) m => s.modCore m (fun c => { c with tretGo := true })) s

/-- A core waits at its `tret` to return to a place. -/
def Core.meets (c : Core) (tpc : W64) : Bool := c.tretWait && decide (c.tpc = tpc)

theorem Core.meets_iff (c : Core) (tpc : W64) : c.meets tpc = true ↔ c.tretWait = true ∧ c.tpc = tpc := by
  simp [Core.meets]

/-- What `tret` does that may take effect and that nothing earlier can stop. -/
def tretResult (s : State) : Res :=
  let n := s.ev.core
  if s.cur.tretGo then .ok (s.retire.returnOf n)
  else if s.retire.resumable s.cur.tpc = false then .trap cBadTarget s.cur.tpc
  else if s.cur.ppl ≠ 0 then .ok (s.retire.returnOf n)
  else if (s.cordonOf n).length ≤ 1 then .ok ((s.retire.returnOf n).renumber n)
  else if (s.cordonOf n).all (fun m => (s.atTret.coreAt m).meets s.cur.tpc) then
    .ok (((s.atTret.letGo (s.cordonOf n)).renumber n).returnOf n)
  else .wait s.atTret

theorem runWord_congr {i : Instr} {s : State} {f g : State → Res} (h : Ready i s) (hfg : f s.retire = g s.retire) :
    runWord i s f = runWord i s g := by
  rw [runWord_ready h, runWord_ready h, hfg]

theorem exec_tret {s : State} (h : Ready .tret s) (hclear : s.cur.uncleared = false) :
    exec .tret s = runWord .tret s (fun _ => tretResult s) := by
  show execTret s = _
  refine runWord_congr h ?_
  rw [State.clearedThen, if_neg (by simp [hclear])]
  simp only [State.cordonOf_retire, State.retire_cur, State.retire_ev]
  rfl

section
variable {s : State} (h : Ready .tret s) (hclear : s.cur.uncleared = false)
include h hclear

theorem exec_tret_go (hgo : s.cur.tretGo = true) : exec .tret s = .next (s.retire.returnOf s.ev.core) :=
  (exec_tret h hclear).trans (runWord_ok h (by simp [tretResult, hgo]))

variable (hgo : s.cur.tretGo = false)
include hgo

theorem exec_tret_badTarget (hr : s.retire.resumable s.cur.tpc = false) : Traps .tret s cBadTarget s.cur.tpc :=
  (exec_tret h hclear).trans (runWord_trap h (by simp [tretResult, hgo, hr]))

variable (hr : s.retire.resumable s.cur.tpc = true)
include hr

theorem exec_tret_level (hppl : s.cur.ppl ≠ 0) : exec .tret s = .next (s.retire.returnOf s.ev.core) := by
  have hok : tretResult s = .ok (s.retire.returnOf s.ev.core) := by
    simp only [tretResult, hgo, hr, if_pos hppl]
    simp
  exact (exec_tret h hclear).trans (runWord_ok h hok)

variable (hppl : s.cur.ppl = 0)
include hppl

theorem exec_tret_alone (hl : s.cur.leader = none) (hm : s.cur.members = []) :
    exec .tret s = .next ((s.retire.returnOf s.ev.core).renumber s.ev.core) := by
  have hcordon : s.cordonOf s.ev.core = [s.ev.core] := State.cordonOf_alone hl hm
  exact (exec_tret h hclear).trans (runWord_ok h (by simp [tretResult, hgo, hr, hppl, hcordon]))

variable (hlen : 1 < (s.cordonOf s.ev.core).length)
include hlen

/-- The last core of a cordon to reach its `tret` returns, and the others may. -/
theorem exec_tret_last
    (hall : ∀ m ∈ s.cordonOf s.ev.core, m ≠ s.ev.core → (s.coreAt m).tretWait = true ∧ (s.coreAt m).tpc = s.cur.tpc) :
    exec .tret s = .next (((s.atTret.letGo (s.cordonOf s.ev.core)).renumber s.ev.core).returnOf s.ev.core) := by
  have hmeet : ∀ m ∈ s.cordonOf s.ev.core, (s.atTret.coreAt m).meets s.cur.tpc = true := by
    intro m hm
    rw [Core.meets_iff]
    by_cases hn : m = s.ev.core
    · rw [hn, State.coreAt_atTret]
      exact ⟨rfl, rfl⟩
    · rw [State.coreAt_atTret_ne hn]
      exact hall m hm hn
  exact (exec_tret h hclear).trans
    (runWord_ok h (by simp [tretResult, hgo, hr, hppl, Nat.not_le.2 hlen, List.all_eq_true.2 hmeet]))

/-- One that other cores of its cordon have not reached waits for them. -/
theorem exec_tret_waits {m : Nat} (hm : m ∈ s.cordonOf s.ev.core) (hn : m ≠ s.ev.core)
    (hnot : (s.coreAt m).tretWait = false ∨ (s.coreAt m).tpc ≠ s.cur.tpc) :
    exec .tret s = .next s.atTret.hold := by
  have hmeet : ¬ ∀ k ∈ s.cordonOf s.ev.core, (s.atTret.coreAt k).meets s.cur.tpc = true := by
    intro hall
    have hmeets := hall m hm
    rw [State.coreAt_atTret_ne hn, Core.meets_iff] at hmeets
    simp [hmeets] at hnot
  have hwait : tretResult s = .wait s.atTret := by
    simp only [tretResult, hgo, hr, hppl, Nat.not_le.2 hlen, List.all_eq_true, if_neg hmeet]
    simp
  have huntrained : s.atTret.hold.untrained s = s.atTret.hold := by
    refine State.untrained_same ?_
    rw [State.hold, State.cur_modCur, State.atTret_eq, State.cur_setCur]
    rfl
  rw [exec_tret h hclear, runWord_ready h, hwait]
  exact congrArg Host.Outcome.next huntrained

end

/-! ## What the steps of a return leave -/

theorem Returned.t_eq {s t : State} (h : Returned s t) : t.cur.t = s.cur.t.finish.at s.cur.tpc 0 := by
  obtain ⟨-, lane, cordsz, hcur⟩ := h
  rw [hcur]
  exact s.cur.retire_returned_t s.cycle (s.retire.codeFor s.ev.core)

theorem Returned.code_eq {s t : State} (h : Returned s t) : t.cur.code = some (s.retire.codeFor s.ev.core) := by
  obtain ⟨-, lane, cordsz, hcur⟩ := h
  rw [hcur]
  rfl

/-- Fetch then sees memory itself, if the core has no store on its way. -/
theorem Returned.code_performed {s t : State} (h : Returned s t) (hperf : ∀ x ∈ s.cur.mem, x.isStore = true → x.performed = true) :
    t.cur.code = some s.codeView := by
  have hmem : (s.retire.coreAt s.ev.core).mem = s.cur.mem := congrArg (·.mem) s.retire_cur
  rw [h.code_eq, State.codeFor_performed (by rw [hmem]; exact hperf)]
  rfl

theorem State.letGo_keeps {γ : Type} (view : Core → γ) (h : ∀ c : Core, view { c with tretGo := true } = view c) (s : State)
    (ms : List Nat) (m : Nat) : view ((s.letGo ms).coreAt m) = view (s.coreAt m) :=
  State.foldl_modCore_keeps view (core := id) (fun _ => h) ms s m

@[simp] theorem State.letGo_ev (s : State) (ms : List Nat) : (s.letGo ms).ev = s.ev :=
  foldl_keeps State.ev (f := fun s m => s.modCore m (fun c => { c with tretGo := true })) (fun _ _ => rfl) ms s

/-- The state in which the last core of a cordon returns: every core of it may return, and this one to the place it came with. -/
theorem State.letGo_renumber (s : State) (ms : List Nat) :
    let u := (s.atTret.letGo ms).renumber s.ev.core
    u.ev = s.ev ∧ u.cur.tcause = s.cur.tcause ∧ u.cur.tpc = s.cur.tpc ∧ ∀ m ∈ ms, (u.coreAt m).tretGo = true := by
  have hev : ((s.atTret.letGo ms).renumber s.ev.core).ev = s.ev := by simp; rfl
  -- the numbering and the permissions change no cause and no return address
  have keeps {γ : Type} (view : Core → γ) (hlane : ∀ c lane cordsz, view (Core.inLane c lane cordsz) = view c)
      (hgo : ∀ c : Core, view { c with tretGo := true } = view c) :
      view ((s.atTret.letGo ms).renumber s.ev.core).cur = view (s.atTret.coreAt s.ev.core) := by
    rw [State.cur, hev, State.renumber_keeps view hlane, State.letGo_keeps view hgo]
  refine ⟨hev, ?tcause, ?tpc, fun m hm => ?go⟩
  case tcause =>
    rw [keeps (·.tcause) (fun _ _ _ => rfl) (fun _ => rfl), State.coreAt_atTret]
    rfl
  case tpc =>
    rw [keeps (·.tpc) (fun _ _ _ => rfl) (fun _ => rfl), State.coreAt_atTret]
    rfl
  case go =>
    rw [State.renumber_keeps (·.tretGo) (fun _ _ _ => rfl)]
    exact State.foldl_modCore_sets (P := fun c => c.tretGo = true) (fun _ => rfl) s.atTret hm

/-- Settles O13: `tret` answers by the cases of `tretResult`, and each is the return of one core, its trap or its wait. -/
theorem tretReturnsToTpcAtPpl : Obligations.TretReturnsToTpcAtPpl := by
  unfold Obligations.TretReturnsToTpcAtPpl
  intro s h hclear
  refine ⟨fun hgo => ?go, fun hgo => ⟨fun hr hone => ?one, exec_tret_badTarget h hclear hgo, fun hr hppl hlen hmem =>
    ⟨fun hall => ?last, fun m hm hn hnot => ?waits⟩⟩⟩
  case go =>
    refine ⟨_, exec_tret_go h hclear hgo, (returned_returnOf s).only, ?_⟩
    rw [State.returnOf_retire, State.cur_setCur]
    exact ⟨rfl, rfl, rfl, rfl, rfl⟩
  case one =>
    have hret : ∃ t, exec .tret s = .next t ∧ Returned s t := by
      by_cases hppl : s.cur.ppl = 0
      · obtain ⟨hl, hm⟩ := hone.resolve_right (fun hne => hne hppl)
        exact ⟨_, exec_tret_alone h hclear hgo hr hppl hl hm, returned_renumber hl hm⟩
      · exact ⟨_, exec_tret_level h hclear hgo hr hppl, returned_returnOf s⟩
    obtain ⟨t, hexec, hret⟩ := hret
    refine ⟨t, hexec, hret.only, ?_⟩
    rw [hret.t_eq]
    have hperf := hret.code_performed
    obtain ⟨-, lane, cordsz, hcur⟩ := hret
    rw [hcur] at hperf ⊢
    exact ⟨rfl, rfl, rfl, rfl, rfl, rfl, hperf, rfl, rfl, rfl, rfl, rfl, s.cur.t.finish_sameThread, rfl, rfl, rfl, rfl, rfl⟩
  case last =>
    obtain ⟨hev, htcause, htpc, hmay⟩ := s.letGo_renumber (s.cordonOf s.ev.core)
    refine ⟨_, exec_tret_last h hclear hgo hr hppl hlen hall, ?_⟩
    generalize (s.atTret.letGo (s.cordonOf s.ev.core)).renumber s.ev.core = u at hev htcause htpc hmay
    rw [State.cur_returnOf (congrArg Ev.core hev)]
    refine ⟨rfl, ?_, htpc, fun m hm hn => ?_⟩
    · exact (congrArg (·.extractLsb' 20 2) htcause).trans hppl
    · rw [State.returnOf_eq, State.coreAt_modCore_ne u _ hn]
      exact hmay m hm
  case waits =>
    refine ⟨_, ⟨exec_tret_waits h hclear hgo hr hppl hlen hm hn hnot, ?_⟩, ?_⟩ <;>
      rw [State.hold, State.cur_modCur, State.atTret_eq, State.cur_setCur]
    · exact ⟨rfl, rfl, rfl, rfl⟩
    · rfl

end Sys2Proof.Machine
end
